-- ==== Sys2Proof/Word.lean ====
section
/-! DEFINITION. The words of the block: bytes, bus addresses as presented, and transaction words
(30_encoding.md rules R91 to R94). -/

namespace Sys2Proof

/-- One register byte or bus data byte (R20, R64). -/
abbrev Byte := BitVec 8

/-- A bus address as the issuer presents it, 20 bits, before masking (R93). -/
abbrev BusAddr := BitVec 20

/-- One hexadecimal digit of a written word (R91), and the four address bits above bit 15. -/
abbrev Nibble := BitVec 4

/-- A transaction word. "There are two word formats, told apart by the top four bits" (R91). -/
inductive TransWord where
  /-- Format T, 32 bits (R93). -/
  | t (w : BitVec 32)
  /-- Format C, 64 bits (R94). -/
  | c (w : BitVec 64)
  deriving DecidableEq, Repr

end Sys2Proof
end

