-- ==== Sys2Proof/Config.lean ====
section
/-! DEFINITION. The constants of 00_scope.md rule R6, the parameters of rule R7, and the free values. -/

namespace Sys2Proof

/-! ### Constants DOC0 fixes (R6) -/

/-- `REG_COUNT`: number of register-file bytes. -/
abbrev regCount : Nat := 24
/-- `APU_BASE`: bus address of register index 0. -/
abbrev apuBase : Nat := 0x4000
/-- The bus address of the last register: `$4017`, from `APU_BASE` and `REG_COUNT` (R68, R69). -/
abbrev apuLast : Nat := apuBase + regCount - 1
/-- `TIMER_COUNT`: number of channel timers. -/
abbrev timerCount : Nat := 5
/-- `TABLE_SIZE`: entries of the timer period table. -/
abbrev tableSize : Nat := 32
/-- `CPU_CLOCK`, hertz. -/
abbrev cpuClock : Nat := 1789773
/-- `PULSE_DIV`. -/
abbrev pulseDiv : Nat := 16
/-- `TRI_DIV`. -/
abbrev triDiv : Nat := 32
/-- `MIN_PULSE_PERIOD`: the smallest audible decoded pulse period. -/
abbrev minPulsePeriod : Nat := 8
/-- `G_PULSE`. -/
abbrev gPulse : Rat := 752 / 10000
/-- `G_TRI`. -/
abbrev gTri : Rat := 851 / 10000
/-- `G_NOISE`. -/
abbrev gNoise : Rat := 494 / 10000
/-- `G_DMC`. -/
abbrev gDmc : Rat := 335 / 10000
/-- `SAMPLE_RATE`, samples per second. -/
abbrev sampleRate : Nat := 44100
/-- `CHANNELS`: mono. -/
abbrev channels : Nat := 1
/-- `BIT_DEPTH`: bits per sample. -/
abbrev bitDepth : Nat := 16
/-- Bytes of one sample of all channels: two (R60, R248). -/
abbrev bytesPerSample : Nat := channels * (bitDepth / 8)

/-! ### Parameters (R7, R8) -/

/-- `TICK_POLICY` (R8, R181, R182). -/
inductive TickPolicy where
  | gated | unconditional
  deriving DecidableEq, Repr

/-- `MIX_POLICY` (R8, R213, R214). -/
inductive MixPolicy where
  | fixedGain | arithmeticMean
  deriving DecidableEq, Repr

/-- `SNAPSHOT_MODE` (R81, R200). -/
inductive SnapshotMode where
  | atRefill | latestPublished
  deriving DecidableEq, Repr

/-- The parameters of rule R7: fixed for the life of an instance, changed by no operation (R52). -/
structure Config where
  /-- `SCALE`. -/
  scale : Nat
  /-- `TABLE[0..31]` (R40). -/
  table : Vector Nat tableSize
  /-- `BUFFER_SAMPLES`. -/
  bufferSamples : Nat
  /-- `K`, the number of physical buffers. -/
  buffers : Nat
  /-- The `w` of `BUS_MASK = 2^w - 1`; a mask of another form is no legal configuration (R70, U17). -/
  busWidth : Nat
  /-- `TICK_POLICY`. -/
  tickPolicy : TickPolicy
  /-- `MIX_POLICY`. -/
  mixPolicy : MixPolicy
  /-- `PCM_SCALE`. -/
  pcmScale : Nat
  /-- `SNAPSHOT_MODE`. -/
  snapshotMode : SnapshotMode
  deriving DecidableEq, Repr

/-- `BUS_MASK` (R7, R70). -/
def Config.busMask (c : Config) : Nat := 2 ^ c.busWidth - 1

/-- Bytes of one PCM buffer: `2 * BUFFER_SAMPLES` (R42). -/
def Config.bufferBytes (c : Config) : Nat := bytesPerSample * c.bufferSamples

/-- The constraints rule R7 puts on the parameters. -/
def Config.wf (c : Config) : Bool :=
  decide (1 ≤ c.scale) && decide (c.table[1] = 254) && decide (1 ≤ c.bufferSamples)
    && decide (2 ≤ c.buffers) && decide (15 ≤ c.busWidth) && decide (c.busWidth ≤ 20)
    && decide (1 ≤ c.pcmScale)

/-! ### Free values: constants with no body, of which nothing can be proved -/

/-- `SCALE` less one, which no source gives (R7: OPEN, D6). Log 1. -/
opaque Config.openScale : Nat

/-- The noise source before its range is imposed (R211, D12). Log 4. -/
opaque Config.noiseSource : Nat → Rat

/-- `EXT_READ` at a draw, a device id and an address: "any byte, possibly different on every read" (R128). Log 4. -/
opaque Config.extRead : (draw id a : Nat) → Byte

/-- Which admissible point of the order a pass reads under `LatestPublished`, at a draw (R81: "which point is a
draw"). Log 5. -/
opaque Config.publishPoint : (draw : Nat) → Nat

/-- The default `TABLE` of R40. Log 2. -/
def Config.defaultTable : Vector Nat tableSize :=
  #v[10, 254, 20, 2, 40, 4, 80, 6, 160, 8, 60, 10, 14, 12, 26, 14,
     12, 16, 24, 18, 48, 20, 96, 22, 192, 24, 72, 26, 16, 28, 32, 30]

/-- The defaults of R7, with `SCALE` left open (`SCALE >= 1`). Logs 1, 2, 3. -/
def Config.default : Config where
  scale := Config.openScale + 1
  table := Config.defaultTable
  bufferSamples := 512
  buffers := 2
  busWidth := 16
  tickPolicy := .gated
  mixPolicy := .fixedGain
  pcmScale := 32767
  snapshotMode := .atRefill

end Sys2Proof
end

