-- ==== Sys2Proof/Syntax.lean ====
section
/-! DEFINITION. The operations of the block as syntax: one constructor per row of opcode_table.json
(30_encoding.md rules R92 to R99). -/

namespace Sys2Proof

/-- A handler target (10_state.md R46, 30_encoding.md R94): the construction-time default, the block's own register
file, or a device outside the block with its id (2..65535, see `Target.wf`). -/
inductive Target where
  | default
  | apu
  | ext (id : BitVec 16)
  deriving DecidableEq, Repr

/-- The two timing domains and the host (00_scope.md R12). -/
inductive Domain where
  | e | a | h
  deriving DecidableEq, Repr

/-- One constructor per row of the opcode table. In the per-register rows `hi` is address bits 19:16, the word's bits
27:24, which are outside the row's mask (R99); `data` is the byte written. -/
inductive Instr where
  | wr00 (hi : Nibble) (data : Byte)
  | wr01 (hi : Nibble) (data : Byte)
  | wr02 (hi : Nibble) (data : Byte)
  | wr03 (hi : Nibble) (data : Byte)
  | wr04 (hi : Nibble) (data : Byte)
  | wr05 (hi : Nibble) (data : Byte)
  | wr06 (hi : Nibble) (data : Byte)
  | wr07 (hi : Nibble) (data : Byte)
  | wr08 (hi : Nibble) (data : Byte)
  | wr09 (hi : Nibble) (data : Byte)
  | wr0A (hi : Nibble) (data : Byte)
  | wr0B (hi : Nibble) (data : Byte)
  | wr0C (hi : Nibble) (data : Byte)
  | wr0D (hi : Nibble) (data : Byte)
  | wr0E (hi : Nibble) (data : Byte)
  | wr0F (hi : Nibble) (data : Byte)
  | wr10 (hi : Nibble) (data : Byte)
  | wr11 (hi : Nibble) (data : Byte)
  | wr12 (hi : Nibble) (data : Byte)
  | wr13 (hi : Nibble) (data : Byte)
  | wr14 (hi : Nibble) (data : Byte)
  | wr15 (hi : Nibble) (data : Byte)
  | wr16 (hi : Nibble) (data : Byte)
  | wr17 (hi : Nibble) (data : Byte)
  | rd00 (hi : Nibble)
  | rd01 (hi : Nibble)
  | rd02 (hi : Nibble)
  | rd03 (hi : Nibble)
  | rd04 (hi : Nibble)
  | rd05 (hi : Nibble)
  | rd06 (hi : Nibble)
  | rd07 (hi : Nibble)
  | rd08 (hi : Nibble)
  | rd09 (hi : Nibble)
  | rd0A (hi : Nibble)
  | rd0B (hi : Nibble)
  | rd0C (hi : Nibble)
  | rd0D (hi : Nibble)
  | rd0E (hi : Nibble)
  | rd0F (hi : Nibble)
  | rd10 (hi : Nibble)
  | rd11 (hi : Nibble)
  | rd12 (hi : Nibble)
  | rd13 (hi : Nibble)
  | rd14 (hi : Nibble)
  | rd15 (hi : Nibble)
  | rd16 (hi : Nibble)
  | rd17 (hi : Nibble)
  | busw (addr : BusAddr) (data : Byte)
  | busr (addr : BusAddr)
  | tick
  | consumed
  | start
  | stop
  | reset
  | mapr (first last : BusAddr) (target : Target)
  | mapw (first last : BusAddr) (target : Target)
  deriving DecidableEq, Repr

end Sys2Proof
end

