-- ==== Sys2Proof/WellFormed.lean ====
section
/-! DEFINITION. Well-formed instructions: those some word spells under a given bus mask (30_encoding.md R94, R99 to
R101). -/

namespace Sys2Proof

/-- A legal handler target: `Ext(id)` has `id` in 2..65535 (R46, R94). -/
def Target.wf : Target → Bool
  | .default => true
  | .apu => true
  | .ext id => decide (2 ≤ id.toNat)

/-- The address, less the bits 19:16 that the per-register rows ignore, is one of the 24 of the register file (R99). -/
def isRegRow (addr : BusAddr) : Bool :=
  decide (apuBase ≤ (addr.setWidth 16).toNat) && decide ((addr.setWidth 16).toNat < apuBase + regCount)

/-- Well-formedness under a bus mask: the fallback rows hold only addresses no earlier row matches (R99); a range
has both ends within the mask and a legal target (R100, R94). An empty range (`first > last`) is well-formed (R101). -/
def Instr.wf (mask : Nat) : Instr → Bool
  | .wr00 _ _ => true
  | .wr01 _ _ => true
  | .wr02 _ _ => true
  | .wr03 _ _ => true
  | .wr04 _ _ => true
  | .wr05 _ _ => true
  | .wr06 _ _ => true
  | .wr07 _ _ => true
  | .wr08 _ _ => true
  | .wr09 _ _ => true
  | .wr0A _ _ => true
  | .wr0B _ _ => true
  | .wr0C _ _ => true
  | .wr0D _ _ => true
  | .wr0E _ _ => true
  | .wr0F _ _ => true
  | .wr10 _ _ => true
  | .wr11 _ _ => true
  | .wr12 _ _ => true
  | .wr13 _ _ => true
  | .wr14 _ _ => true
  | .wr15 _ _ => true
  | .wr16 _ _ => true
  | .wr17 _ _ => true
  | .rd00 _ => true
  | .rd01 _ => true
  | .rd02 _ => true
  | .rd03 _ => true
  | .rd04 _ => true
  | .rd05 _ => true
  | .rd06 _ => true
  | .rd07 _ => true
  | .rd08 _ => true
  | .rd09 _ => true
  | .rd0A _ => true
  | .rd0B _ => true
  | .rd0C _ => true
  | .rd0D _ => true
  | .rd0E _ => true
  | .rd0F _ => true
  | .rd10 _ => true
  | .rd11 _ => true
  | .rd12 _ => true
  | .rd13 _ => true
  | .rd14 _ => true
  | .rd15 _ => true
  | .rd16 _ => true
  | .rd17 _ => true
  | .busw addr _ => !isRegRow addr
  | .busr addr => !isRegRow addr
  | .tick => true
  | .consumed => true
  | .start => true
  | .stop => true
  | .reset => true
  | .mapr first last target => decide (first.toNat ≤ mask) && decide (last.toNat ≤ mask) && target.wf
  | .mapw first last target => decide (first.toNat ≤ mask) && decide (last.toNat ≤ mask) && target.wf

end Sys2Proof
end

