-- ==== Sys2Proof/Decode.lean ====
section
/-! DEFINITION. Decoding of transaction words, total, every ill-formed word refused by name, and the encoder
(30_encoding.md rules R91 to R101). -/

namespace Sys2Proof

/-- Why a word spells no operation (R100), one name per clause, and two names that no clause of R100 gives:
`wrongLength` (log 10) and `truncated` (log 16). Where several hold, the name given is the model's choice
(log 15): the kind first, then as `decodeBare` and `decodeRange` say. -/
inductive IllFormed where
  /-- Kind 0x0 or 0xA to 0xF. -/
  | reservedKind (kind : Nibble)
  /-- A kind of format C in a 32-bit word, or one of format T in a 64-bit word (R91, R95). -/
  | wrongLength (kind : Nibble)
  /-- A nonzero `data` in any kind but BUSW. -/
  | nonzeroData
  /-- A nonzero `addr` in TICK, CONSUMED, START, STOP, RESET. -/
  | nonzeroAddr
  /-- Nonzero bits 59:56 of a C word. -/
  | nonzeroBits
  /-- `start > BUS_MASK`. -/
  | startAboveMask
  /-- `end > BUS_MASK`. -/
  | endAboveMask
  /-- The digits end before the word does, or there are none. DESIGN CHOICE: no clause of R100 names this. Log 16. -/
  | truncated
  deriving DecidableEq, Repr

/-- The nine operations of R92 with their operands. Every row of the opcode table spells one of them: the
per-register rows are BUSW and BUSR at an address of the register file (R99). -/
inductive Operation where
  | busw (addr : BusAddr) (data : Byte)
  | busr (addr : BusAddr)
  | tick
  | consumed
  | start
  | stop
  | reset
  | mapr (first last : BusAddr) (target : Target)
  | mapw (first last : BusAddr) (target : Target)
  deriving DecidableEq, Repr

/-- The address of register index `k` with bits 19:16 as presented: `hi` over `$4000 + k` (R68, R99). -/
def rowAddr (hi : Nibble) (k : Nat) : BusAddr := hi ++ BitVec.ofNat 16 (apuBase + k)

/-- The operation a table row spells (R98 step 1, R99). -/
def Instr.operation : Instr → Operation
  | .wr00 hi data => .busw (rowAddr hi 0x00) data
  | .wr01 hi data => .busw (rowAddr hi 0x01) data
  | .wr02 hi data => .busw (rowAddr hi 0x02) data
  | .wr03 hi data => .busw (rowAddr hi 0x03) data
  | .wr04 hi data => .busw (rowAddr hi 0x04) data
  | .wr05 hi data => .busw (rowAddr hi 0x05) data
  | .wr06 hi data => .busw (rowAddr hi 0x06) data
  | .wr07 hi data => .busw (rowAddr hi 0x07) data
  | .wr08 hi data => .busw (rowAddr hi 0x08) data
  | .wr09 hi data => .busw (rowAddr hi 0x09) data
  | .wr0A hi data => .busw (rowAddr hi 0x0A) data
  | .wr0B hi data => .busw (rowAddr hi 0x0B) data
  | .wr0C hi data => .busw (rowAddr hi 0x0C) data
  | .wr0D hi data => .busw (rowAddr hi 0x0D) data
  | .wr0E hi data => .busw (rowAddr hi 0x0E) data
  | .wr0F hi data => .busw (rowAddr hi 0x0F) data
  | .wr10 hi data => .busw (rowAddr hi 0x10) data
  | .wr11 hi data => .busw (rowAddr hi 0x11) data
  | .wr12 hi data => .busw (rowAddr hi 0x12) data
  | .wr13 hi data => .busw (rowAddr hi 0x13) data
  | .wr14 hi data => .busw (rowAddr hi 0x14) data
  | .wr15 hi data => .busw (rowAddr hi 0x15) data
  | .wr16 hi data => .busw (rowAddr hi 0x16) data
  | .wr17 hi data => .busw (rowAddr hi 0x17) data
  | .rd00 hi => .busr (rowAddr hi 0x00)
  | .rd01 hi => .busr (rowAddr hi 0x01)
  | .rd02 hi => .busr (rowAddr hi 0x02)
  | .rd03 hi => .busr (rowAddr hi 0x03)
  | .rd04 hi => .busr (rowAddr hi 0x04)
  | .rd05 hi => .busr (rowAddr hi 0x05)
  | .rd06 hi => .busr (rowAddr hi 0x06)
  | .rd07 hi => .busr (rowAddr hi 0x07)
  | .rd08 hi => .busr (rowAddr hi 0x08)
  | .rd09 hi => .busr (rowAddr hi 0x09)
  | .rd0A hi => .busr (rowAddr hi 0x0A)
  | .rd0B hi => .busr (rowAddr hi 0x0B)
  | .rd0C hi => .busr (rowAddr hi 0x0C)
  | .rd0D hi => .busr (rowAddr hi 0x0D)
  | .rd0E hi => .busr (rowAddr hi 0x0E)
  | .rd0F hi => .busr (rowAddr hi 0x0F)
  | .rd10 hi => .busr (rowAddr hi 0x10)
  | .rd11 hi => .busr (rowAddr hi 0x11)
  | .rd12 hi => .busr (rowAddr hi 0x12)
  | .rd13 hi => .busr (rowAddr hi 0x13)
  | .rd14 hi => .busr (rowAddr hi 0x14)
  | .rd15 hi => .busr (rowAddr hi 0x15)
  | .rd16 hi => .busr (rowAddr hi 0x16)
  | .rd17 hi => .busr (rowAddr hi 0x17)
  | .busw addr data => .busw addr data
  | .busr addr => .busr addr
  | .tick => .tick
  | .consumed => .consumed
  | .start => .start
  | .stop => .stop
  | .reset => .reset
  | .mapr first last target => .mapr first last target
  | .mapw first last target => .mapw first last target

/-- Who issues an operation: a description, no check the block performs (R92, R275). -/
def Operation.issuer : Operation → Domain
  | .busw _ _ => .e
  | .busr _ => .e
  | .tick => .e
  | .consumed => .a
  | .start => .h
  | .stop => .h
  | .reset => .h
  | .mapr _ _ _ => .h
  | .mapw _ _ _ => .h

/-- The kind nibble of an operation (R92). -/
def Operation.kind : Operation → Nibble
  | .busw _ _ => 0x1
  | .busr _ => 0x2
  | .tick => 0x3
  | .consumed => 0x4
  | .start => 0x5
  | .stop => 0x6
  | .reset => 0x7
  | .mapr _ _ _ => 0x8
  | .mapw _ _ _ => 0x9

/-! ### Decoding -/

/-- The top four bits (R91). -/
def TransWord.kind : TransWord → Nibble
  | .t w => w.extractLsb' 28 4
  | .c w => w.extractLsb' 60 4

/-- `target`: 0 is `Default`, 1 is `Apu`, 2..65535 is `Ext(target)` (R94). -/
def decodeTarget (v : BitVec 16) : Target :=
  if v = 0 then .default else if v = 1 then .apu else .ext v

/-- The register row an address falls in: its low 16 bits less `$4000`, when that is in 0..23; address bits 19:16 are
outside the rows' mask (R99). -/
def regRow (addr : BusAddr) : Option (Fin regCount) :=
  let rel := addr.setWidth 16 - BitVec.ofNat 16 apuBase
  if h : rel.toNat < regCount then some ⟨rel.toNat, h⟩ else none

/-- Rows `WR.00` to `WR.17`. -/
def wrRow (k : Fin regCount) (hi : Nibble) (data : Byte) : Instr :=
  match k.val with
  | 0 => .wr00 hi data
  | 1 => .wr01 hi data
  | 2 => .wr02 hi data
  | 3 => .wr03 hi data
  | 4 => .wr04 hi data
  | 5 => .wr05 hi data
  | 6 => .wr06 hi data
  | 7 => .wr07 hi data
  | 8 => .wr08 hi data
  | 9 => .wr09 hi data
  | 10 => .wr0A hi data
  | 11 => .wr0B hi data
  | 12 => .wr0C hi data
  | 13 => .wr0D hi data
  | 14 => .wr0E hi data
  | 15 => .wr0F hi data
  | 16 => .wr10 hi data
  | 17 => .wr11 hi data
  | 18 => .wr12 hi data
  | 19 => .wr13 hi data
  | 20 => .wr14 hi data
  | 21 => .wr15 hi data
  | 22 => .wr16 hi data
  | _ => .wr17 hi data

/-- Rows `RD.00` to `RD.17`. -/
def rdRow (k : Fin regCount) (hi : Nibble) : Instr :=
  match k.val with
  | 0 => .rd00 hi
  | 1 => .rd01 hi
  | 2 => .rd02 hi
  | 3 => .rd03 hi
  | 4 => .rd04 hi
  | 5 => .rd05 hi
  | 6 => .rd06 hi
  | 7 => .rd07 hi
  | 8 => .rd08 hi
  | 9 => .rd09 hi
  | 10 => .rd0A hi
  | 11 => .rd0B hi
  | 12 => .rd0C hi
  | 13 => .rd0D hi
  | 14 => .rd0E hi
  | 15 => .rd0F hi
  | 16 => .rd10 hi
  | 17 => .rd11 hi
  | 18 => .rd12 hi
  | 19 => .rd13 hi
  | 20 => .rd14 hi
  | 21 => .rd15 hi
  | 22 => .rd16 hi
  | _ => .rd17 hi

/-- A BUSW word: the first matching row wins (R99). -/
def decodeBusw (addr : BusAddr) (data : Byte) : Instr :=
  match regRow addr with
  | some k => wrRow k (addr.extractLsb' 16 4) data
  | none => .busw addr data

/-- A BUSR word: the first matching row wins (R99). -/
def decodeBusr (addr : BusAddr) : Instr :=
  match regRow addr with
  | some k => rdRow k (addr.extractLsb' 16 4)
  | none => .busr addr

/-- A T word with neither address nor data (R93, R100). DESIGN CHOICE: where both are nonzero the word is refused under
the name of the address; R100 gives no order. Log 15. -/
def decodeBare (addr : BusAddr) (data : Byte) (i : Instr) : Except IllFormed Instr :=
  if addr ≠ 0 then .error .nonzeroAddr else if data ≠ 0 then .error .nonzeroData else .ok i

/-- A C word's range and target (R94, R100). DESIGN CHOICE: where several clauses hold the word is refused under the
name of the first of bits 59:56, `start`, `end`; R100 gives no order. Log 15. -/
def decodeRange (mask : Nat) (w : BitVec 64) (mk : BusAddr → BusAddr → Target → Instr) : Except IllFormed Instr :=
  if w.extractLsb' 56 4 ≠ 0 then .error .nonzeroBits
  else if mask < (w.extractLsb' 36 20).toNat then .error .startAboveMask
  else if mask < (w.extractLsb' 16 20).toNat then .error .endAboveMask
  else .ok (mk (w.extractLsb' 36 20) (w.extractLsb' 16 20) (decodeTarget (w.extractLsb' 0 16)))

/-- Format T (R93). -/
def decodeT (w : BitVec 32) : Except IllFormed Instr :=
  let kind := w.extractLsb' 28 4
  let addr := w.extractLsb' 8 20
  let data := w.extractLsb' 0 8
  if kind = 0x1 then .ok (decodeBusw addr data)
  else if kind = 0x2 then (if data ≠ 0 then .error .nonzeroData else .ok (decodeBusr addr))
  else if kind = 0x3 then decodeBare addr data .tick
  else if kind = 0x4 then decodeBare addr data .consumed
  else if kind = 0x5 then decodeBare addr data .start
  else if kind = 0x6 then decodeBare addr data .stop
  else if kind = 0x7 then decodeBare addr data .reset
  else if kind = 0x8 ∨ kind = 0x9 then .error (.wrongLength kind)
  else .error (.reservedKind kind)

/-- Format C (R94). -/
def decodeC (mask : Nat) (w : BitVec 64) : Except IllFormed Instr :=
  let kind := w.extractLsb' 60 4
  if kind = 0x8 then decodeRange mask w .mapr
  else if kind = 0x9 then decodeRange mask w .mapw
  else if 0x1 ≤ kind.toNat ∧ kind.toNat ≤ 0x7 then .error (.wrongLength kind)
  else .error (.reservedKind kind)

/-- The decoder, total on words, under a bus mask (R95, R98 step 1, R100). -/
def decode (mask : Nat) : TransWord → Except IllFormed Instr
  | .t w => decodeT w
  | .c w => decodeC mask w

/-! ### Encoding -/

/-- A T word from its fields (R93). -/
def tWord (kind : Nibble) (addr : BusAddr) (data : Byte) : TransWord := .t (kind ++ addr ++ data)

/-- `target` as a field (R94). -/
def Target.code : Target → BitVec 16
  | .default => 0
  | .apu => 1
  | .ext id => id

/-- A C word from its fields (R94). -/
def cWord (kind : Nibble) (first last : BusAddr) (target : Target) : TransWord :=
  .c (kind ++ 0#4 ++ first ++ last ++ target.code)

/-- The word of an operation (R92 to R94). -/
def Operation.encode (o : Operation) : TransWord :=
  match o with
  | .busw addr data => tWord o.kind addr data
  | .busr addr => tWord o.kind addr 0
  | .tick => tWord o.kind 0 0
  | .consumed => tWord o.kind 0 0
  | .start => tWord o.kind 0 0
  | .stop => tWord o.kind 0 0
  | .reset => tWord o.kind 0 0
  | .mapr first last target => cWord o.kind first last target
  | .mapw first last target => cWord o.kind first last target

/-- The word of an instruction. -/
def encode (i : Instr) : TransWord := i.operation.encode

/-! ### Words as digits -/

/-- A number from its hexadecimal digits, most significant first (R91). -/
def ofDigits (ds : List Nibble) : Nat := ds.foldl (fun acc d => acc * 16 + d.toNat) 0

/-- The next word of a listing of digits: "A decoder reads the top nibble of the next word" (R95, R91). Answers the
word and the digits after it. DESIGN CHOICE: digits that end inside a word, or no digits at all, are refused under the
name `truncated`; R91, R95 and R100 do not say how a decoder answers them. Log 16. -/
def nextWord : List Nibble → Except IllFormed (TransWord × List Nibble)
  | [] => .error .truncated
  | d :: ds =>
    if 0x1 ≤ d.toNat ∧ d.toNat ≤ 0x7 then
      if 7 ≤ ds.length then .ok (.t (BitVec.ofNat 32 (ofDigits (d :: ds.take 7))), ds.drop 7)
      else .error .truncated
    else if d.toNat = 0x8 ∨ d.toNat = 0x9 then
      if 15 ≤ ds.length then .ok (.c (BitVec.ofNat 64 (ofDigits (d :: ds.take 15))), ds.drop 15)
      else .error .truncated
    else .error (.reservedKind d)

/-- The digits of a word: "8 nibbles for T, 16 for C", most significant first (R91). -/
def TransWord.digits : TransWord → List Nibble
  | .t w => [w.extractLsb' 28 4, w.extractLsb' 24 4, w.extractLsb' 20 4, w.extractLsb' 16 4,
             w.extractLsb' 12 4, w.extractLsb' 8 4, w.extractLsb' 4 4, w.extractLsb' 0 4]
  | .c w => [w.extractLsb' 60 4, w.extractLsb' 56 4, w.extractLsb' 52 4, w.extractLsb' 48 4,
             w.extractLsb' 44 4, w.extractLsb' 40 4, w.extractLsb' 36 4, w.extractLsb' 32 4,
             w.extractLsb' 28 4, w.extractLsb' 24 4, w.extractLsb' 20 4, w.extractLsb' 16 4,
             w.extractLsb' 12 4, w.extractLsb' 8 4, w.extractLsb' 4 4, w.extractLsb' 0 4]

/-! ### The opcode table's numbering -/

/-- A word of the opcode table: bit 0 is its least significant bit; up to 32 bits it is a T word, else a C word
(R91: words "have no byte order"). -/
def TransWord.ofTable (nbits w : Nat) : TransWord :=
  if nbits ≤ 32 then .t (BitVec.ofNat 32 w) else .c (BitVec.ofNat 64 w)

/-- The instruction the decoder reads from a word of the opcode table, under the default bus mask, which the table
assumes (R99). -/
def decodeTableWord (nbits w : Nat) : Option Instr :=
  match decode Config.default.busMask (TransWord.ofTable nbits w) with
  | .ok i => some i
  | .error _ => none

end Sys2Proof
end

