-- ==== Sys2Proof/Machine/State.lean ====
section
/-! DEFINITION. The state of the block as plain data (10_state.md), the reasons a step can stop, and the state after
reset (rule R51). -/

namespace Sys2Proof.Machine

/-- The sink's run states (R45). -/
inductive SinkState where
  | idle | running | stopped
  deriving DecidableEq, Repr

/-- What the `fault` record holds when it is not `None` (R48, R260, R261): the masked address. -/
inductive FaultRecord where
  /-- Fault 1: a read of a `Default` slot (R260). -/
  | unmappedRead (a : Nat)
  /-- Fault 2: an `Apu` slot whose register index is not in 0..23 (R261). -/
  | regIndexOutOfRange (a : Nat)
  deriving DecidableEq, Repr

/-- The numeric code of a fault (R260, R261). -/
def FaultRecord.code : FaultRecord → Nat
  | .unmappedRead _ => 1
  | .regIndexOutOfRange _ => 2

/-- A run of slots `lo..hi` that hold one target. -/
structure Run where
  lo : Nat
  hi : Nat
  target : Target
  deriving DecidableEq, Repr

/-- A handler table (R46): the runs of slots that do not hold `Default`, in one canonical form (`HandlerTable.wf`);
an unlisted slot holds `Default`. Log 8. -/
structure HandlerTable where
  runs : List Run
  deriving DecidableEq, Repr

/-- The copy of registers and timers a pass computes from (R200, R50 a). -/
structure Snapshot where
  reg : Vector Byte regCount
  timer : Vector Nat timerCount
  deriving DecidableEq, Repr

/-- Everything the spec gives the block (10_state.md), its parameters (00_scope.md R7), and five fields of the
model's own (`replies`, `published`, `draws`, `trace`, `pos`). -/
structure State where
  /-- The parameters (R7); no operation changes them (R52). -/
  cfg : Config
  /-- `reg[0x00..0x17]` (R20). -/
  reg : Vector Byte regCount
  /-- `timer[0..4]`, unbounded naturals (R38). -/
  timer : Vector Nat timerCount
  /-- The sample counter `n` (R37). -/
  n : Nat
  /-- The rotation cursor `cur` (R44). -/
  cur : Nat
  /-- `sink` (R45). -/
  sink : SinkState
  /-- `buf[0..K-1]` (R42). -/
  buf : List (List Byte)
  /-- `scratch` (R43). -/
  scratch : List Byte
  /-- Read handlers `rdh` (R46). -/
  rdh : HandlerTable
  /-- Write handlers `wrh` (R46). -/
  wrh : HandlerTable
  /-- `pcm_out`: the contents of every submitted buffer, in order (R47). -/
  pcmOut : List (List Byte)
  /-- `queue`: buffer indices submitted and not yet consumed (R47). -/
  queue : List Nat
  /-- `fault` (R48). -/
  fault : Option FaultRecord
  /-- Model's own: the bytes returned to the issuers of BUSR, oldest first (R13 a). Log 6. -/
  replies : List Byte
  /-- Model's own: earlier snapshots a pass may still use under `LatestPublished`, oldest first (R81). Log 5. -/
  published : List Snapshot
  /-- Model's own: how many free values have been drawn. Log 4. -/
  draws : Nat
  /-- Model's own: the operation words presented and not yet taken (R5, R91). Log 7. -/
  trace : List TransWord
  /-- Model's own: how many words have been taken; the position of R100. Log 7. -/
  pos : Nat
  deriving DecidableEq, Repr

/-- Why `exec` has no transition in a state where the spec calls the machine stuck. -/
inductive Fault where
  /-- Raised by every operation but RESET while `fault` is set: "While `fault != None` the block accepts RESET and
  nothing else" (R263, U13). Safe: the model stops where the spec says there is no transition. -/
  | stuck (f : FaultRecord)
  deriving DecidableEq, Repr

/-- Why an operation or a word has no meaning. -/
inductive Refusal where
  /-- Raised by an arm of `exec` whose instruction has no meaning yet; none. Safe. -/
  | notModelled (mnemonic : String)
  /-- Raised by START when the sink is not `Idle`: "refused: the model gives it no meaning" (R247, U12). Safe. -/
  | startOutsideIdle (sink : SinkState)
  /-- Raised by the step on an ill-formed word, "by name and position" (R100, U14). Safe. -/
  | illFormed (pos : Nat) (why : IllFormed)
  deriving DecidableEq, Repr

/-- `2 * BUFFER_SAMPLES` bytes of silence (R51). -/
def silence (c : Config) : List Byte := List.replicate c.bufferBytes 0

/-- The state after reset under parameters `c` (R51, R290). -/
def State.resetWith (c : Config) : State where
  cfg := c
  reg := Vector.replicate regCount 0
  timer := Vector.replicate timerCount 0
  n := 0
  cur := 0
  sink := .idle
  buf := List.replicate c.buffers (silence c)
  scratch := silence c
  rdh := ⟨[]⟩
  wrh := ⟨[]⟩
  pcmOut := []
  queue := []
  fault := none
  replies := []
  published := []
  draws := 0
  trace := []
  pos := 0

/-- Power-on: "The state of a freshly built model (power-on) is the state after RESET" (R290), under the default
parameters (R7). -/
def State.reset : State := State.resetWith Config.default

end Sys2Proof.Machine
end

