-- ==== Sys2Proof/Machine/Operands.lean ====
section
/-! DEFINITION. How operands are formed from word and register bits (30_encoding.md R97). -/

namespace Sys2Proof.Machine

/-- The slot: `a = addr & BUS_MASK`, "a bitwise AND, not a modulo" (R70, R97). -/
def slot (c : Config) (addr : BusAddr) : Nat := addr.toNat &&& c.busMask

/-- The register index `a - APU_BASE`, when it is in 0..23 (R97, R127). -/
def regIndex (a : Nat) : Option (Fin regCount) :=
  if h : apuBase ≤ a ∧ a - apuBase < regCount then some ⟨a - apuBase, h.2⟩ else none

/-- The reload code `val >> 3`: "always a valid index into the 32-entry period table" (R41, R97). -/
def reloadCode (v : Byte) : Fin tableSize :=
  ⟨(v >>> 3).toNat, by
    have := v.isLt
    rw [BitVec.toNat_ushiftRight, Nat.shiftRight_eq_div_pow]
    show v.toNat / 2 ^ 3 < 32
    omega⟩

/-- The timer load `TABLE[code] * SCALE`, exact (R97, R171). -/
def timerLoad (c : Config) (v : Byte) : Nat := c.table[reloadCode v] * c.scale

/-- The linear load `(data & 0x7F) * SCALE` (R97, R175). -/
def linearLoad (c : Config) (v : Byte) : Nat := (v &&& 0x7F).toNat * c.scale

/-- The 11-bit decoded period `reg[lo] | ((reg[hi] & 0x07) << 8)` (R61, R97). -/
def period (lo hi : Byte) : Nat := lo.toNat ||| ((hi &&& 0x07).toNat <<< 8)

end Sys2Proof.Machine
end

