-- ==== Sys2Proof/Machine/Flags.lean ====
section
/-! DEFINITION. The predicates that stand in place of flags (10_state.md R49): halt bits, the tick gate, enable bits,
live timers. The block has no condition-code register. -/

namespace Sys2Proof.Machine

/-- The halt bit of a timer slot (R49, R176 to R180). Slots 2 and 4 share one bit. -/
def halt (reg : Vector Byte regCount) (c : Fin timerCount) : Bool :=
  match c with
  | 0 => reg[0x00] &&& 0x20 != 0
  | 1 => reg[0x04] &&& 0x20 != 0
  | 2 => reg[0x08] &&& 0x80 != 0
  | 3 => reg[0x0C] &&& 0x20 != 0
  | 4 => reg[0x08] &&& 0x80 != 0

/-- `gate(c)` of R181: the halt bit under `Gated`, never under `Unconditional` (R182). -/
def gate (p : TickPolicy) (reg : Vector Byte regCount) (c : Fin timerCount) : Bool :=
  match p with
  | .gated => halt reg c
  | .unconditional => false

/-- The four audible voices (00_scope.md R15). -/
inductive Channel where
  | pulse1 | pulse2 | triangle | noise
  deriving DecidableEq, Repr

/-- A channel's enable bit in `reg[0x15]` (R36, R49). -/
def enabled (reg : Vector Byte regCount) : Channel → Bool
  | .pulse1 => reg[0x15] &&& 0x01 != 0
  | .pulse2 => reg[0x15] &&& 0x02 != 0
  | .triangle => reg[0x15] &&& 0x04 != 0
  | .noise => reg[0x15] &&& 0x08 != 0

/-- `live(c)`: `timer[c] > 0` (R49, R170). -/
def live (timer : Vector Nat timerCount) (c : Fin timerCount) : Bool := decide (0 < timer[c])

end Sys2Proof.Machine
end

