-- ==== Sys2Proof/Machine/Ops.lean ====
section
/-! DEFINITION. The named operations over state that every meaning is built from: acceptance, raising a fault,
handler tables, registers, timers, buffers, free values. -/

namespace Sys2Proof.Machine

/-- The three outcomes of an operation. -/
abbrev Result := Host.Outcome State Fault Refusal

/-! ### Faults (R262, R263) -/

/-- `raise F(info)`: "`fault <- F(info)`; abandon the operation: no other state is written" (R262). -/
def raise (f : FaultRecord) (s : State) : State := { s with fault := some f }

/-- Acceptance: in the faulted state every operation but RESET has no transition (R263). -/
def accept (s : State) (o : Result) : Result :=
  match s.fault with
  | none => o
  | some f => .fault (.stuck f)

/-! ### Handler tables (R46, R123, R124, R129) -/

/-- The target at slot `a` in a list of runs; `Default` where no run holds it. -/
def lookupRuns : List Run → Nat → Target
  | [], _ => .default
  | r :: rs, a => if r.lo ≤ a ∧ a ≤ r.hi then r.target else lookupRuns rs a

/-- The target of slot `a`: "every slot is always populated" (R46, R129). -/
def HandlerTable.lookup (t : HandlerTable) (a : Nat) : Target := lookupRuns t.runs a

/-- What is left of a run outside `lo..hi`. -/
def carveRun (lo hi : Nat) (r : Run) : List Run :=
  (if r.lo < lo then [⟨r.lo, min r.hi (lo - 1), r.target⟩] else [])
    ++ (if hi < r.hi then [⟨max r.lo (hi + 1), r.hi, r.target⟩] else [])

/-- Insert a run at its place. -/
def insertRun (x : Run) : List Run → List Run
  | [] => [x]
  | r :: rs => if x.lo < r.lo then x :: r :: rs else r :: insertRun x rs

/-- Two neighbouring runs that are one. -/
def Run.joins (r q : Run) : Bool := decide (r.hi + 1 = q.lo) && decide (r.target = q.target)

/-- Put a run before runs already joined. -/
def joinRun (r : Run) : List Run → List Run
  | [] => [r]
  | q :: qs => if r.joins q then ⟨r.lo, q.hi, r.target⟩ :: qs else r :: q :: qs

/-- Join neighbouring runs of one target, so that runs are as long as they can be. -/
def joinRuns : List Run → List Run
  | [] => []
  | r :: rs => joinRun r (joinRuns rs)

/-- "`for a in start .. end` (inclusive, ascending; no iteration when `start > end`): `h[a] <- target`" (R123, R124). -/
def HandlerTable.setRange (lo hi : Nat) (target : Target) (t : HandlerTable) : HandlerTable :=
  if hi < lo then t
  else
    let rest := t.runs.flatMap (carveRun lo hi)
    ⟨joinRuns (if target = .default then rest else insertRun ⟨lo, hi, target⟩ rest)⟩

/-- The canonical form of a list of runs: each holds a slot and a legal target other than `Default`; they rise, do
not overlap, and no two neighbours could be one run. -/
def canonicalRuns : List Run → Bool
  | [] => true
  | r :: rs =>
    decide (r.lo ≤ r.hi) && decide (r.target ≠ .default) && r.target.wf && canonicalRuns rs &&
      (match rs with
       | [] => true
       | q :: _ => decide (r.hi < q.lo) && !r.joins q)

/-- A handler table in canonical form with every run within the mask. -/
def HandlerTable.wf (mask : Nat) (t : HandlerTable) : Bool :=
  canonicalRuns t.runs && t.runs.all (fun r => decide (r.hi ≤ mask))

/-! ### Registers and timers (R10, R20, R38) -/

/-- `reg[k] <- v` (R10). -/
def putReg (k : Fin regCount) (v : Byte) (s : State) : State := { s with reg := s.reg.set k v }

/-- `timer[c] <- v` (R10). -/
def putTimer (c : Fin timerCount) (v : Nat) (s : State) : State := { s with timer := s.timer.set c v }

/-- The present registers and timers as one copy (R200). -/
def State.snapshot (s : State) : Snapshot := ⟨s.reg, s.timer⟩

/-- Before an operation changes registers or timers, `LatestPublished` keeps the snapshot a later pass may still
use; `AtRefill` "needs no extra state" (R81, D16). -/
def publish (s : State) : State :=
  match s.cfg.snapshotMode with
  | .atRefill => s
  | .latestPublished => { s with published := s.published ++ [s.snapshot] }

/-- After a CONSUMED, points of the order before it are past: the snapshots kept for `LatestPublished` go (R81: "after
the previous CONSUMED"). Log 5. -/
def forget (s : State) : State := { s with published := [] }

/-! ### Replies and free values -/

/-- The byte a BUSR returns to its issuer (R13 a, R121); nothing in the block latches it (D27). -/
def reply (b : Byte) (s : State) : State := { s with replies := s.replies ++ [b] }

/-- Count one free value as drawn. -/
def draw (s : State) : State := { s with draws := s.draws + 1 }

/-! ### Buffers (R42, R242) -/

/-- `buf[k] <- bytes`. -/
def putBuf (k : Nat) (bytes : List Byte) (s : State) : State := { s with buf := s.buf.set k bytes }

/-- `submit(k)`: append a copy of `buf[k]` to `pcm_out` and `k` to `queue` (R242). -/
def submit (k : Nat) (s : State) : State :=
  { s with pcmOut := s.pcmOut ++ [s.buf.getD k []], queue := s.queue ++ [k] }

end Sys2Proof.Machine
end

