-- ==== Sys2Proof/Machine/RegisterFile.lean ====
section
/-! DEFINITION. WriteRegister and ReadRegister (41_register_file.md), with the reloads of 42_timer_sequencer.md. -/

namespace Sys2Proof.Machine

/-- The side effect of storing `v` at index `k`: the reloads of R171 to R175, none elsewhere (R140). -/
def reload (k : Fin regCount) (v : Byte) (s : State) : State :=
  match k.val with
  | 0x03 => putTimer 0 (timerLoad s.cfg v) s
  | 0x07 => putTimer 1 (timerLoad s.cfg v) s
  | 0x0B => putTimer 2 (timerLoad s.cfg v) s
  | 0x0F => putTimer 3 (timerLoad s.cfg v) s
  | 0x08 => putTimer 4 (linearLoad s.cfg v) s
  | _ => s

/-- `WriteRegister(idx, val)`: store, then the side effect, one atomic step (R140, R156). -/
def writeRegister (k : Fin regCount) (v : Byte) (s : State) : State := reload k v (putReg k v (publish s))

/-- `ReadRegister(idx)`: "the stored raw byte verbatim, with no status-bit synthesis" (R157, R158). -/
def readRegister (k : Fin regCount) (s : State) : Byte := s.reg[k]

end Sys2Proof.Machine
end

