-- ==== Sys2Proof/Machine/Bus.lean ====
section
/-! DEFINITION. The AddressableBus (40_bus.md): BUSW, BUSR, their per-register rows, MAPR and MAPW. -/

namespace Sys2Proof.Machine

/-- `BUSW addr, data` (R122): `Default` discards (R126), `Apu` writes the register or raises (R127, R155), `Ext` has
no effect on this block (R128). -/
def busWrite (addr : BusAddr) (data : Byte) (s : State) : Result :=
  accept s <|
    let a := slot s.cfg addr
    match s.wrh.lookup a with
    | .default => .next s
    | .apu =>
      match regIndex a with
      | some k => .next (writeRegister k data s)
      | none => .next (raise (.regIndexOutOfRange a) s)
    | .ext _ => .next s

/-- `BUSR addr` (R121): `Default` raises (R125), `Apu` answers the register or raises (R127, R155), `Ext` answers a
free byte (R128). -/
def busRead (addr : BusAddr) (s : State) : Result :=
  accept s <|
    let a := slot s.cfg addr
    match s.rdh.lookup a with
    | .default => .next (raise (.unmappedRead a) s)
    | .apu =>
      match regIndex a with
      | some k => .next (reply (readRegister k s) s)
      | none => .next (raise (.regIndexOutOfRange a) s)
    | .ext id => .next (draw (reply (Config.extRead s.draws id.toNat a) s))

/-! ### The fallback rows -/

/-- BUSW (R122). -/
def execBusw (addr : BusAddr) (data : Byte) (s : State) : Result := busWrite addr data s

/-- BUSR (R121). -/
def execBusr (addr : BusAddr) (s : State) : Result := busRead addr s

/-! ### Handler registration -/

/-- MAPR (R123). -/
def execMapr (first last : BusAddr) (target : Target) (s : State) : Result :=
  accept s (.next { s with rdh := s.rdh.setRange first.toNat last.toNat target })

/-- MAPW (R124). -/
def execMapw (first last : BusAddr) (target : Target) (s : State) : Result :=
  accept s (.next { s with wrh := s.wrh.setRange first.toNat last.toNat target })

/-! ### The per-register rows: a BUSW or BUSR at the register's address, dispatched on the tables in the state
(R98 step 2, R99) -/

/-- WR.00 (R141). -/
def execWr00 (hi : Nibble) (data : Byte) (s : State) : Result := busWrite (rowAddr hi 0x00) data s

/-- WR.01 (R154). -/
def execWr01 (hi : Nibble) (data : Byte) (s : State) : Result := busWrite (rowAddr hi 0x01) data s

/-- WR.02 (R142). -/
def execWr02 (hi : Nibble) (data : Byte) (s : State) : Result := busWrite (rowAddr hi 0x02) data s

/-- WR.03 (R143). -/
def execWr03 (hi : Nibble) (data : Byte) (s : State) : Result := busWrite (rowAddr hi 0x03) data s

/-- WR.04 (R144). -/
def execWr04 (hi : Nibble) (data : Byte) (s : State) : Result := busWrite (rowAddr hi 0x04) data s

/-- WR.05 (R154). -/
def execWr05 (hi : Nibble) (data : Byte) (s : State) : Result := busWrite (rowAddr hi 0x05) data s

/-- WR.06 (R145). -/
def execWr06 (hi : Nibble) (data : Byte) (s : State) : Result := busWrite (rowAddr hi 0x06) data s

/-- WR.07 (R146). -/
def execWr07 (hi : Nibble) (data : Byte) (s : State) : Result := busWrite (rowAddr hi 0x07) data s

/-- WR.08 (R147). -/
def execWr08 (hi : Nibble) (data : Byte) (s : State) : Result := busWrite (rowAddr hi 0x08) data s

/-- WR.09 (R154). -/
def execWr09 (hi : Nibble) (data : Byte) (s : State) : Result := busWrite (rowAddr hi 0x09) data s

/-- WR.0A (R148). -/
def execWr0A (hi : Nibble) (data : Byte) (s : State) : Result := busWrite (rowAddr hi 0x0A) data s

/-- WR.0B (R149). -/
def execWr0B (hi : Nibble) (data : Byte) (s : State) : Result := busWrite (rowAddr hi 0x0B) data s

/-- WR.0C (R150). -/
def execWr0C (hi : Nibble) (data : Byte) (s : State) : Result := busWrite (rowAddr hi 0x0C) data s

/-- WR.0D (R154). -/
def execWr0D (hi : Nibble) (data : Byte) (s : State) : Result := busWrite (rowAddr hi 0x0D) data s

/-- WR.0E (R151). -/
def execWr0E (hi : Nibble) (data : Byte) (s : State) : Result := busWrite (rowAddr hi 0x0E) data s

/-- WR.0F (R152). -/
def execWr0F (hi : Nibble) (data : Byte) (s : State) : Result := busWrite (rowAddr hi 0x0F) data s

/-- WR.10 (R154). -/
def execWr10 (hi : Nibble) (data : Byte) (s : State) : Result := busWrite (rowAddr hi 0x10) data s

/-- WR.11 (R154). -/
def execWr11 (hi : Nibble) (data : Byte) (s : State) : Result := busWrite (rowAddr hi 0x11) data s

/-- WR.12 (R154). -/
def execWr12 (hi : Nibble) (data : Byte) (s : State) : Result := busWrite (rowAddr hi 0x12) data s

/-- WR.13 (R154). -/
def execWr13 (hi : Nibble) (data : Byte) (s : State) : Result := busWrite (rowAddr hi 0x13) data s

/-- WR.14 (R154). -/
def execWr14 (hi : Nibble) (data : Byte) (s : State) : Result := busWrite (rowAddr hi 0x14) data s

/-- WR.15 (R153). -/
def execWr15 (hi : Nibble) (data : Byte) (s : State) : Result := busWrite (rowAddr hi 0x15) data s

/-- WR.16 (R154). -/
def execWr16 (hi : Nibble) (data : Byte) (s : State) : Result := busWrite (rowAddr hi 0x16) data s

/-- WR.17 (R154). -/
def execWr17 (hi : Nibble) (data : Byte) (s : State) : Result := busWrite (rowAddr hi 0x17) data s

/-- RD.00 (R157). -/
def execRd00 (hi : Nibble) (s : State) : Result := busRead (rowAddr hi 0x00) s

/-- RD.01 (R157). -/
def execRd01 (hi : Nibble) (s : State) : Result := busRead (rowAddr hi 0x01) s

/-- RD.02 (R157). -/
def execRd02 (hi : Nibble) (s : State) : Result := busRead (rowAddr hi 0x02) s

/-- RD.03 (R157). -/
def execRd03 (hi : Nibble) (s : State) : Result := busRead (rowAddr hi 0x03) s

/-- RD.04 (R157). -/
def execRd04 (hi : Nibble) (s : State) : Result := busRead (rowAddr hi 0x04) s

/-- RD.05 (R157). -/
def execRd05 (hi : Nibble) (s : State) : Result := busRead (rowAddr hi 0x05) s

/-- RD.06 (R157). -/
def execRd06 (hi : Nibble) (s : State) : Result := busRead (rowAddr hi 0x06) s

/-- RD.07 (R157). -/
def execRd07 (hi : Nibble) (s : State) : Result := busRead (rowAddr hi 0x07) s

/-- RD.08 (R157). -/
def execRd08 (hi : Nibble) (s : State) : Result := busRead (rowAddr hi 0x08) s

/-- RD.09 (R157). -/
def execRd09 (hi : Nibble) (s : State) : Result := busRead (rowAddr hi 0x09) s

/-- RD.0A (R157). -/
def execRd0A (hi : Nibble) (s : State) : Result := busRead (rowAddr hi 0x0A) s

/-- RD.0B (R157). -/
def execRd0B (hi : Nibble) (s : State) : Result := busRead (rowAddr hi 0x0B) s

/-- RD.0C (R157). -/
def execRd0C (hi : Nibble) (s : State) : Result := busRead (rowAddr hi 0x0C) s

/-- RD.0D (R157). -/
def execRd0D (hi : Nibble) (s : State) : Result := busRead (rowAddr hi 0x0D) s

/-- RD.0E (R157). -/
def execRd0E (hi : Nibble) (s : State) : Result := busRead (rowAddr hi 0x0E) s

/-- RD.0F (R157). -/
def execRd0F (hi : Nibble) (s : State) : Result := busRead (rowAddr hi 0x0F) s

/-- RD.10 (R157). -/
def execRd10 (hi : Nibble) (s : State) : Result := busRead (rowAddr hi 0x10) s

/-- RD.11 (R157). -/
def execRd11 (hi : Nibble) (s : State) : Result := busRead (rowAddr hi 0x11) s

/-- RD.12 (R157). -/
def execRd12 (hi : Nibble) (s : State) : Result := busRead (rowAddr hi 0x12) s

/-- RD.13 (R157). -/
def execRd13 (hi : Nibble) (s : State) : Result := busRead (rowAddr hi 0x13) s

/-- RD.14 (R157). -/
def execRd14 (hi : Nibble) (s : State) : Result := busRead (rowAddr hi 0x14) s

/-- RD.15 (R158). -/
def execRd15 (hi : Nibble) (s : State) : Result := busRead (rowAddr hi 0x15) s

/-- RD.16 (R157). -/
def execRd16 (hi : Nibble) (s : State) : Result := busRead (rowAddr hi 0x16) s

/-- RD.17 (R157). -/
def execRd17 (hi : Nibble) (s : State) : Result := busRead (rowAddr hi 0x17) s

end Sys2Proof.Machine
end

