-- ==== Sys2Proof/Machine/Lifecycle.lean ====
section
/-! DEFINITION. RESET (70_reset_and_hazards.md R290). -/

namespace Sys2Proof.Machine

/-- The block's state after RESET (R51, R290). The parameters stay (R52); so do what lies outside the block: the words
still presented, the bytes already returned, the count of draws. Logs 4, 6, 7. -/
def resetBlock (s : State) : State :=
  { State.resetWith s.cfg with replies := s.replies, draws := s.draws, trace := s.trace, pos := s.pos }

/-- RESET: "accepted in every state, including the faulted state" (R290, R263). -/
def execReset (s : State) : Result := .next (resetBlock s)

end Sys2Proof.Machine
end

