-- ==== Sys2Proof/Machine/Sequencer.lean ====
section
/-! DEFINITION. TICK (42_timer_sequencer.md). The reloads stand in RegisterFile.lean. -/

namespace Sys2Proof.Machine

/-- One slot of a TICK: "`if timer[c] > 0 and not gate(c): timer[c] <- timer[c] - 1`" (R181). -/
def tickSlot (p : TickPolicy) (reg : Vector Byte regCount) (timer : Vector Nat timerCount) (c : Fin timerCount) : Nat :=
  if live timer c && !gate p reg c then timer[c] - 1 else timer[c]

/-- All five slots, each from its own old value (R181). -/
def tickTimers (p : TickPolicy) (reg : Vector Byte regCount) (timer : Vector Nat timerCount) : Vector Nat timerCount :=
  Vector.ofFn (tickSlot p reg timer)

/-- TICK (R181): accepted in every sink state, writes the timers only (R186). -/
def execTick (s : State) : Result :=
  accept s (.next { publish s with timer := tickTimers s.cfg.tickPolicy s.reg s.timer })

end Sys2Proof.Machine
end

