-- ==== Sys2Proof/Machine/Synthesizer.lean ====
section
/-! DEFINITION. The channel synthesizer (43_synthesizer.md): exact rational arithmetic throughout (R11, D10). -/

namespace Sys2Proof.Machine

/-! ### Number primitives (R10) -/

/-- `frac(q) = q - floor(q)` (R10). -/
def frac (q : Rat) : Rat := q - (q.floor : Rat)

/-- `trunc(q)`: toward zero (R10). -/
def trunc (q : Rat) : Int := if 0 ≤ q then q.floor else -(-q).floor

/-- `clip(z, lo, hi)` (R10). -/
def clip (z lo hi : Int) : Int := if z < lo then lo else if hi < z then hi else z

/-- `le16(z)`: the two bytes of `z mod 65536`, low byte first (R10, R60). -/
def le16 (z : Int) : List Byte :=
  [(BitVec.ofInt bitDepth z).extractLsb' 0 8, (BitVec.ofInt bitDepth z).extractLsb' 8 8]

/-- The least signed sample of `BIT_DEPTH` bits: -32768 (R6, R216). -/
def pcmMin : Int := -2 ^ (bitDepth - 1)

/-- The greatest signed sample of `BIT_DEPTH` bits: 32767 (R6, R216). -/
def pcmMax : Int := 2 ^ (bitDepth - 1) - 1

/-! ### Waveforms and phase -/

/-- The square wave of R205. -/
def sq (x : Rat) : Rat := if x < 1 / 2 then 1 else -1

/-- The triangle wave of R209. -/
def tri (x : Rat) : Rat :=
  if x < 1 / 4 then 4 * x else if x < 3 / 4 then 2 - 4 * x else 4 * x - 4

/-- The frequency in hertz of period `p` under divider `d` (R202). -/
def frequency (d p : Nat) : Rat := (cpuClock : Rat) / ((d : Rat) * ((p : Rat) + 1))

/-- The phase of sample `n` at frequency `f`: `frac(f * t)` with `t = n / SAMPLE_RATE` (R201). -/
def phase (f : Rat) (n : Nat) : Rat := frac (f * ((n : Rat) / (sampleRate : Rat)))

/-- `NOISE(n)`: the free source held in [-1, 1] (R211, D12). Log 4. -/
def noise (n : Nat) : Rat := max (-1) (min 1 (Config.noiseSource n))

/-! ### Channels: a sample where the channel is active, `none` where it is silent -/

/-- Decoded period of pulse-1 (R203). -/
def pulse1Period (snap : Snapshot) : Nat := period snap.reg[0x02] snap.reg[0x03]

/-- Decoded period of pulse-2 (R203). -/
def pulse2Period (snap : Snapshot) : Nat := period snap.reg[0x06] snap.reg[0x07]

/-- Decoded period of the triangle (R207). -/
def trianglePeriod (snap : Snapshot) : Nat := period snap.reg[0x0A] snap.reg[0x0B]

/-- The active channels (R204, R206, R208, R210, gathered in R212). -/
def active (snap : Snapshot) : Channel → Bool
  | .pulse1 => enabled snap.reg .pulse1 && live snap.timer 0 && decide (minPulsePeriod ≤ pulse1Period snap)
  | .pulse2 => enabled snap.reg .pulse2 && live snap.timer 1 && decide (minPulsePeriod ≤ pulse2Period snap)
  | .triangle => enabled snap.reg .triangle && live snap.timer 2 && live snap.timer 4
  | .noise => enabled snap.reg .noise && live snap.timer 3

/-- A channel's waveform at sample `n`, with `v` the noise value of that sample (R204, R206, R208, R210). -/
def wave (snap : Snapshot) (n : Nat) (v : Rat) : Channel → Rat
  | .pulse1 => sq (phase (frequency pulseDiv (pulse1Period snap)) n)
  | .pulse2 => sq (phase (frequency pulseDiv (pulse2Period snap)) n)
  | .triangle => tri (phase (frequency triDiv (trianglePeriod snap)) n)
  | .noise => v

/-- A channel's contribution: "A silent channel contributes exactly 0 to the mix" (R212). -/
def voice (snap : Snapshot) (n : Nat) (v : Rat) (ch : Channel) : Rat :=
  if active snap ch then wave snap n v ch else 0

/-! ### Mix and conversion -/

/-- The DMC input: "fixed at 0 (unimplemented channel, always silent placeholder)" (R215). -/
def dmc : Rat := 0

/-- The fixed-gain mix (R213). -/
def mixFixed (snap : Snapshot) (n : Nat) (v : Rat) : Rat :=
  (voice snap n v .pulse1 + voice snap n v .pulse2) * gPulse + voice snap n v .triangle * gTri
    + voice snap n v .noise * gNoise + dmc * gDmc

/-- The channels, in the order of R214. -/
def allChannels : List Channel := [.pulse1, .pulse2, .triangle, .noise]

/-- The arithmetic mean of the active channels, 0 when there is none (R214). -/
def mixMean (snap : Snapshot) (n : Nat) (v : Rat) : Rat :=
  let on := allChannels.filter (active snap)
  if on.isEmpty then 0 else (on.map (wave snap n v)).sum / (on.length : Rat)

/-- The mixed sample `s(n)` under a policy (R8, R213, R214). -/
def mix (p : MixPolicy) (snap : Snapshot) (n : Nat) (v : Rat) : Rat :=
  match p with
  | .fixedGain => mixFixed snap n v
  | .arithmeticMean => mixMean snap n v

/-- Conversion to a 16-bit sample: `clip(trunc(s * PCM_SCALE), -32768, 32767)` (R216). -/
def toPcm (scale : Nat) (q : Rat) : Int := clip (trunc (q * (scale : Rat))) pcmMin pcmMax

/-- The sample `z(n)`, with `v` the noise value of sample `n` (R219 steps 1 to 3). -/
def sample (c : Config) (snap : Snapshot) (n : Nat) (v : Rat) : Int := toPcm c.pcmScale (mix c.mixPolicy snap n v)

/-! ### The pass (R222) -/

/-- The bytes of `count` samples from sample `n` on: each is written, then `n` advances (R218, R219, R221). -/
def passBytes (c : Config) (snap : Snapshot) : (count n : Nat) → List Byte
  | 0, _ => []
  | count + 1, n => le16 (sample c snap n (noise n)) ++ passBytes c snap count (n + 1)

/-- The snapshot a pass computes from: the present one under `AtRefill` (R200); under `LatestPublished` a free choice
among it and those kept since the last pass (R81). -/
def passSnapshot (s : State) : Snapshot :=
  match s.cfg.snapshotMode with
  | .atRefill => s.snapshot
  | .latestPublished =>
    (s.published ++ [s.snapshot]).getD (Config.publishPoint s.draws % (s.published.length + 1)) s.snapshot

/-- The free choice of a pass counts as drawn. -/
def passDraws (s : State) : Nat :=
  match s.cfg.snapshotMode with
  | .atRefill => s.draws
  | .latestPublished => s.draws + 1

/-- `pass()` (R222): fills `scratch`, advances `n` by `BUFFER_SAMPLES`; earlier snapshots are past (R81). -/
def pass (s : State) : State :=
  { s with
    scratch := passBytes s.cfg (passSnapshot s) s.cfg.bufferSamples s.n
    n := s.n + s.cfg.bufferSamples
    published := []
    draws := passDraws s }

end Sys2Proof.Machine
end

