-- ==== Sys2Proof/Machine/Sink.lean ====
section
/-! DEFINITION. The double-buffered audio sink (44_audio_sink.md): START, CONSUMED, STOP. -/

namespace Sys2Proof.Machine

/-- "`for k in 0 .. K-1` (ascending): `buf[k] <-` silence; `submit(k)`" (R240), from `k` on, `count` of them. -/
def prefillFrom : (count k : Nat) → State → State
  | 0, _, s => s
  | count + 1, k, s => prefillFrom count (k + 1) (submit k (putBuf k (silence s.cfg) s))

/-- The effect of START (R240). -/
def begin (s : State) : State := { prefillFrom s.cfg.buffers 0 s with cur := 0, sink := .running }

/-- START (R240): only from `Idle`; elsewhere refused (R247). -/
def execStart (s : State) : Result :=
  accept s <|
    match s.sink with
    | .idle => .next (begin s)
    | .running => .refused (.startOutsideIdle .running)
    | .stopped => .refused (.startOutsideIdle .stopped)

/-- "`queue <- tail(queue)`": the backend has finished the oldest submitted buffer (R243). -/
def dequeue (s : State) : State := { s with queue := s.queue.tail }

/-- "`buf[cur] <- scratch`; `submit(cur)`; `cur <- (cur + 1) mod K`" (R243). -/
def rotate (s : State) : State :=
  { submit s.cur (putBuf s.cur s.scratch s) with cur := (s.cur + 1) % s.cfg.buffers }

/-- The effect of CONSUMED in `Running` (R243). -/
def refill (s : State) : State := rotate (pass (dequeue s))

/-- CONSUMED (R243): outside `Running` "it has no effect on any state" of the block (R246); being a CONSUMED all the
same, it ends the window of R81, which the model's own `published` holds (log 5). -/
def execConsumed (s : State) : Result :=
  accept s <|
    match s.sink with
    | .running => .next (refill s)
    | .idle => .next (forget s)
    | .stopped => .next (forget s)

/-- STOP (R245): in `Running` drops the queue and ends the stream; elsewhere no effect. -/
def execStop (s : State) : Result :=
  accept s <|
    match s.sink with
    | .running => .next { s with queue := [], sink := .stopped }
    | .idle => .next s
    | .stopped => .next s

end Sys2Proof.Machine
end

