-- ==== Sys2Proof/Machine/Dispatch.lean ====
section
/-! DEFINITION. The dispatch of instructions to their meanings, one arm per row of the opcode table. -/

namespace Sys2Proof.Machine

def exec (i : Instr) (s : State) : Host.Outcome State Fault Refusal :=
  match i with
  | .wr00 hi data => Sys2Proof.Machine.execWr00 hi data s
  | .wr01 hi data => Sys2Proof.Machine.execWr01 hi data s
  | .wr02 hi data => Sys2Proof.Machine.execWr02 hi data s
  | .wr03 hi data => Sys2Proof.Machine.execWr03 hi data s
  | .wr04 hi data => Sys2Proof.Machine.execWr04 hi data s
  | .wr05 hi data => Sys2Proof.Machine.execWr05 hi data s
  | .wr06 hi data => Sys2Proof.Machine.execWr06 hi data s
  | .wr07 hi data => Sys2Proof.Machine.execWr07 hi data s
  | .wr08 hi data => Sys2Proof.Machine.execWr08 hi data s
  | .wr09 hi data => Sys2Proof.Machine.execWr09 hi data s
  | .wr0A hi data => Sys2Proof.Machine.execWr0A hi data s
  | .wr0B hi data => Sys2Proof.Machine.execWr0B hi data s
  | .wr0C hi data => Sys2Proof.Machine.execWr0C hi data s
  | .wr0D hi data => Sys2Proof.Machine.execWr0D hi data s
  | .wr0E hi data => Sys2Proof.Machine.execWr0E hi data s
  | .wr0F hi data => Sys2Proof.Machine.execWr0F hi data s
  | .wr10 hi data => Sys2Proof.Machine.execWr10 hi data s
  | .wr11 hi data => Sys2Proof.Machine.execWr11 hi data s
  | .wr12 hi data => Sys2Proof.Machine.execWr12 hi data s
  | .wr13 hi data => Sys2Proof.Machine.execWr13 hi data s
  | .wr14 hi data => Sys2Proof.Machine.execWr14 hi data s
  | .wr15 hi data => Sys2Proof.Machine.execWr15 hi data s
  | .wr16 hi data => Sys2Proof.Machine.execWr16 hi data s
  | .wr17 hi data => Sys2Proof.Machine.execWr17 hi data s
  | .rd00 hi => Sys2Proof.Machine.execRd00 hi s
  | .rd01 hi => Sys2Proof.Machine.execRd01 hi s
  | .rd02 hi => Sys2Proof.Machine.execRd02 hi s
  | .rd03 hi => Sys2Proof.Machine.execRd03 hi s
  | .rd04 hi => Sys2Proof.Machine.execRd04 hi s
  | .rd05 hi => Sys2Proof.Machine.execRd05 hi s
  | .rd06 hi => Sys2Proof.Machine.execRd06 hi s
  | .rd07 hi => Sys2Proof.Machine.execRd07 hi s
  | .rd08 hi => Sys2Proof.Machine.execRd08 hi s
  | .rd09 hi => Sys2Proof.Machine.execRd09 hi s
  | .rd0A hi => Sys2Proof.Machine.execRd0A hi s
  | .rd0B hi => Sys2Proof.Machine.execRd0B hi s
  | .rd0C hi => Sys2Proof.Machine.execRd0C hi s
  | .rd0D hi => Sys2Proof.Machine.execRd0D hi s
  | .rd0E hi => Sys2Proof.Machine.execRd0E hi s
  | .rd0F hi => Sys2Proof.Machine.execRd0F hi s
  | .rd10 hi => Sys2Proof.Machine.execRd10 hi s
  | .rd11 hi => Sys2Proof.Machine.execRd11 hi s
  | .rd12 hi => Sys2Proof.Machine.execRd12 hi s
  | .rd13 hi => Sys2Proof.Machine.execRd13 hi s
  | .rd14 hi => Sys2Proof.Machine.execRd14 hi s
  | .rd15 hi => Sys2Proof.Machine.execRd15 hi s
  | .rd16 hi => Sys2Proof.Machine.execRd16 hi s
  | .rd17 hi => Sys2Proof.Machine.execRd17 hi s
  | .busw addr data => Sys2Proof.Machine.execBusw addr data s
  | .busr addr => Sys2Proof.Machine.execBusr addr s
  | .tick => Sys2Proof.Machine.execTick s
  | .consumed => Sys2Proof.Machine.execConsumed s
  | .start => Sys2Proof.Machine.execStart s
  | .stop => Sys2Proof.Machine.execStop s
  | .reset => Sys2Proof.Machine.execReset s
  | .mapr first last target => Sys2Proof.Machine.execMapr first last target s
  | .mapw first last target => Sys2Proof.Machine.execMapw first last target s

end Sys2Proof.Machine
end

