-- ==== Sys2Proof/Machine/Present.lean ====
section
/-! DEFINITION. How the next operation word of the stimulus trace is taken (00_scope.md R5, 30_encoding.md R91, R100). -/

namespace Sys2Proof.Machine

/-- The next word is taken from the trace. -/
def takeWord (rest : List TransWord) (s : State) : State := { s with trace := rest, pos := s.pos + 1 }

/-- An operation that a faulted block refuses leaves the block as it is, and the trace goes on: in 95_test_vectors.md
P4 a CONSUMED is "refused (faulted)" and the RESET after it is accepted (R263, B12). Log 9. -/
def present (i : Instr) (s : State) : Result :=
  match exec i s with
  | .next t => .next t
  | .fault (.stuck _) => .next s
  | .refused r => .refused r

/-- One operation of the trace; an ill-formed word is refused "by name and position" (R100); with no word presented
the block "waits for operations" (R292). DESIGN CHOICE: the run ends at an ill-formed word, which is not taken, so no
word after it is performed; R100 does not say whether they are. Log 14. -/
def runNext (s : State) : Result :=
  match s.trace with
  | [] => .next s
  | w :: rest =>
    match decode s.cfg.busMask w with
    | .ok i => present i (takeWord rest s)
    | .error why => .refused (.illFormed s.pos why)

/-- Present a word before all others. -/
def presentWord (w : TransWord) (s : State) : State := { s with trace := w :: s.trace }

end Sys2Proof.Machine
end

