-- ==== Sys2Proof/Machine/Step.lean ====
section
/-! DEFINITION. One step: the next operation word of the trace (Present.lean), and where a word is placed for it. -/

namespace Sys2Proof.Machine

/-- One step of the block: it takes and performs the next operation presented (R65, R72). -/
def step (s : State) : Host.Outcome State Fault Refusal := runNext s

/-- `s` with a word of the opcode table presented next. Log 7. -/
def State.withFetchWord (s : State) (nbits w : Nat) : State := presentWord (TransWord.ofTable nbits w) s

end Sys2Proof.Machine
end

