-- ==== Sys2Proof/Machine/Listing.lean ====
section
/-! DEFINITION. The textual syntax of a stimulus trace and its pseudo-operations (30_encoding.md R102, R103). -/

namespace Sys2Proof

/-- One hexadecimal digit. -/
def hexDigit (d : Nat) : Char := if d < 10 then Char.ofNat (48 + d) else Char.ofNat (55 + d)

/-- `count` hexadecimal digits of a number, most significant first. -/
def hexDigits : (count n : Nat) → List Char
  | 0, _ => []
  | count + 1, n => hexDigit (n / 16 ^ count % 16) :: hexDigits count n

/-- A byte as `#$dd` (R102). -/
def byteText (v : Byte) : String := "#$" ++ String.ofList (hexDigits 2 v.toNat)

/-- An address as `$aaaaa`; "Leading zeros of an address may be dropped" (R102): the fifth digit is. -/
def addrText (a : BusAddr) : String :=
  "$" ++ String.ofList (if a.toNat < 65536 then hexDigits 4 a.toNat else hexDigits 5 a.toNat)

/-- The decimal numeral of `n` in `EXT(n)`, from its digits, at most five (R102). -/
def decimal : (count n : Nat) → List Char
  | 0, _ => []
  | count + 1, n => (if n / 10 = 0 then [] else decimal count (n / 10)) ++ [Char.ofNat (48 + n % 10)]

/-- A handler target as `DEFAULT`, `APU` or `EXT(n)` (R102). -/
def Target.text : Target → String
  | .default => "DEFAULT"
  | .apu => "APU"
  | .ext id => "EXT(" ++ String.ofList (decimal 5 id.toNat) ++ ")"

/-- The line of an operation (R102). -/
def Operation.text : Operation → String
  | .busw addr data => "WR " ++ addrText addr ++ ", " ++ byteText data
  | .busr addr => "RD " ++ addrText addr
  | .tick => "TICK"
  | .consumed => "CONSUMED"
  | .start => "START"
  | .stop => "STOP"
  | .reset => "RESET"
  | .mapr first last target => "MAPR " ++ addrText first ++ ", " ++ addrText last ++ ", " ++ target.text
  | .mapw first last target => "MAPW " ++ addrText first ++ ", " ++ addrText last ++ ", " ++ target.text

/-- The issuing domain as a line's tag (R102). -/
def Domain.text : Domain → String
  | .e => "E: "
  | .a => "A: "
  | .h => "H: "

/-- A line with the issuer of R92, which a line without a tag has (R102). -/
def Operation.line (o : Operation) : String := o.issuer.text ++ o.text

/-- "the returned byte is written after `->` in a listing" (R102). -/
def replyText (addr : BusAddr) (b : Byte) : String :=
  (Operation.busr addr).text ++ " -> $" ++ String.ofList (hexDigits 2 b.toNat)

/-! ### Pseudo-operations (R103) -/

/-- `WREG i, #$dd`: `WR $(0x4000 + i), #$dd`. -/
def wreg (k : Fin regCount) (v : Byte) : Instr := wrRow k 0 v

/-- `RREG i`: `RD $(0x4000 + i)`. -/
def rreg (k : Fin regCount) : Instr := rdRow k 0

/-- `TICKS k`. -/
def ticksOps (k : Nat) : List Instr := List.replicate k .tick

/-- `BIND`: the register file on its addresses, `$4000` to `$4017`, in both directions (R69, R103). -/
def bindOps : List Instr :=
  [.mapr (BitVec.ofNat 20 apuBase) (BitVec.ofNat 20 apuLast) .apu,
   .mapw (BitVec.ofNat 20 apuBase) (BitVec.ofNat 20 apuLast) .apu]

/-- `BOOT`: "`RESET`, then `BIND`, then `START`". -/
def bootOps : List Instr := .reset :: bindOps ++ [.start]

end Sys2Proof
end

