-- ==== Sys2Proof/Safety.lean ====
section
/-! DEFINITION. The terms claims about the block use: what is observed (00_scope.md R13), runs of operations, when an
access reaches a register, and the invariant. -/

namespace Sys2Proof.Machine

/-! ### Observation (R13) -/

/-- "What is observable of the block, and nothing else": the bytes returned, the buffers handed over, the fault. -/
structure Observation where
  replies : List Byte
  pcmOut : List (List Byte)
  fault : Option FaultRecord
  deriving DecidableEq, Repr

/-- What is observed of a state (R13). -/
def State.observe (s : State) : Observation := ⟨s.replies, s.pcmOut, s.fault⟩

/-! ### Runs -/

/-- Operations one after the other, stopping at the first that has no next state. -/
def performAll : List Instr → State → Result
  | [], s => .next s
  | i :: is, s =>
    match exec i s with
    | .next t => performAll is t
    | .fault f => .fault f
    | .refused r => .refused r

/-! ### Accesses -/

/-- The slot an address selects, said by a modulo: "With `BUS_MASK = 2^w - 1` the AND and the modulo agree" (R70). -/
def slotOf (s : State) (addr : BusAddr) : Nat := addr.toNat % 2 ^ s.cfg.busWidth

/-- No fault is recorded and a write at `addr` reaches register `k` through an `Apu` slot (R122, R127). -/
def WriteReaches (s : State) (addr : BusAddr) (k : Fin regCount) : Prop :=
  s.fault = none ∧ slotOf s addr = apuBase + k.val ∧ s.wrh.lookup (slotOf s addr) = .apu

/-- No fault is recorded and a read at `addr` reaches register `k` through an `Apu` slot (R121, R127). -/
def ReadReaches (s : State) (addr : BusAddr) (k : Fin regCount) : Prop :=
  s.fault = none ∧ slotOf s addr = apuBase + k.val ∧ s.rdh.lookup (slotOf s addr) = .apu

/-- The halt bit of a slot, named by its bit number (R24, R27, R30, R33). -/
def haltBit (reg : Vector Byte regCount) (c : Fin timerCount) : Bool :=
  match c with
  | 0 => reg[0x00].getLsbD 5
  | 1 => reg[0x04].getLsbD 5
  | 2 => reg[0x08].getLsbD 7
  | 3 => reg[0x0C].getLsbD 5
  | 4 => reg[0x08].getLsbD 7

/-- The register whose write loads a slot (R38, column "loaded by a write to"). -/
def loadIndex (c : Fin timerCount) : Fin regCount :=
  match c with
  | 0 => 0x03
  | 1 => 0x07
  | 2 => 0x0B
  | 3 => 0x0F
  | 4 => 0x08

/-- The load value of a slot (R38, column "load value"), in plain arithmetic: `v >> 3` is `v / 8`, `v & 0x7F` is
`v % 128`. -/
def loadValue (p : Config) (c : Fin timerCount) (v : Byte) : Nat :=
  if c = 4 then v.toNat % 128 * p.scale else p.table.toList.getD (v.toNat / 8) 0 * p.scale

/-- The standard configuration: `Apu` on exactly 0x4000..0x4017 in both tables (R69). -/
def StandardTables (s : State) : Prop :=
  ∀ a, s.rdh.lookup a = (if apuBase ≤ a ∧ a ≤ apuLast then .apu else .default)
    ∧ s.wrh.lookup a = (if apuBase ≤ a ∧ a ≤ apuLast then .apu else .default)

/-- The standard configuration with the default mask `0xFFFF` and no fault recorded (R69, R99). -/
def Standard (s : State) : Prop := s.fault = none ∧ s.cfg.busWidth = 16 ∧ StandardTables s

/-- The snapshots kept once an operation has written registers or timers: under `LatestPublished` the one before it
joins them (R81). -/
def keptAfter (s : State) : List Snapshot :=
  if s.cfg.snapshotMode = .latestPublished then s.published ++ [⟨s.reg, s.timer⟩] else s.published

/-! ### The invariant -/

/-- The queue before a CONSUMED: "it lists `cur, cur+1, .., K-1, 0, .., cur-1`" (R244). -/
def rotation (k cur : Nat) : List Nat := List.range' cur (k - cur) ++ List.range cur

/-- `max(TABLE)` (R39). -/
def maxTable (c : Config) : Nat := c.table.toList.foldr max 0

/-- The bound of R39 on a timer slot. -/
def timerBound (c : Config) (k : Fin timerCount) : Nat := if k = 4 then 127 * c.scale else maxTable c * c.scale

/-- What holds in every state a run can reach: legal parameters (R7), canonical tables within the mask (R46), buffers
of the configured number and size (R42, R43), the rotation (R244), the run states (R45, R240, R245), the timer bounds
(R39), no kept snapshot under `AtRefill` (R81). -/
structure Inv (s : State) : Prop where
  cfg : s.cfg.wf = true
  rdh : s.rdh.wf s.cfg.busMask = true
  wrh : s.wrh.wf s.cfg.busMask = true
  bufCount : s.buf.length = s.cfg.buffers
  bufBytes : ∀ b ∈ s.buf, b.length = 2 * s.cfg.bufferSamples
  scratchBytes : s.scratch.length = 2 * s.cfg.bufferSamples
  pcmBytes : ∀ b ∈ s.pcmOut, b.length = 2 * s.cfg.bufferSamples
  cur : s.cur < s.cfg.buffers
  queueRunning : s.sink = .running → s.queue = rotation s.cfg.buffers s.cur
  queueElse : s.sink ≠ .running → s.queue = []
  idle : s.sink = .idle → s.cur = 0 ∧ s.pcmOut = []
  timers : ∀ c : Fin timerCount, s.timer[c] ≤ timerBound s.cfg c
  kept : s.cfg.snapshotMode = .atRefill → s.published = []

end Sys2Proof.Machine
end

