-- ==== Sys2Proof/Certificates/Slice0/Obligations.lean ====
section
/-! DEFINITION. The statements for the provers, in the spec's terms. Each docstring names the rule it formalises. -/

open Sys2Proof Sys2Proof.Machine

/-! ### Encoding (30_encoding.md) -/

/-- The worked encodings of R104: each word decodes to its instruction, is that instruction's word, and has the text
the table gives. (R104 is marked derived from R93, R94.) -/
def Obligations.WorkedEncodings : Prop :=
  ∀ e ∈ ([("WR $4003, #$08", .t 0x10400308, .wr03 0 0x08),
      ("WR $14003, #$08", .t 0x11400308, .wr03 1 0x08),
      ("WR $4015, #$01", .t 0x10401501, .wr15 0 0x01),
      ("RD $4015", .t 0x20401500, .rd15 0),
      ("TICK", .t 0x30000000, .tick),
      ("CONSUMED", .t 0x40000000, .consumed),
      ("START", .t 0x50000000, .start),
      ("STOP", .t 0x60000000, .stop),
      ("RESET", .t 0x70000000, .reset),
      ("MAPR $4000, $4017, APU", .c 0x8004000040170001, .mapr 0x4000 0x4017 .apu),
      ("MAPW $4000, $4017, APU", .c 0x9004000040170001, .mapw 0x4000 0x4017 .apu),
      ("MAPW $4016, $4017, EXT(2)", .c 0x9004016040170002, .mapw 0x4016 0x4017 (.ext 2))] :
      List (String × TransWord × Instr)),
    decode 0xFFFF e.2.1 = .ok e.2.2 ∧ encode e.2.2 = e.2.1 ∧ e.2.2.operation.text = e.1

/-- Decoding the word of a well-formed instruction gives the instruction back, every operand at every value
(R93, R94, R99). -/
def Obligations.DecodeOfEncode : Prop :=
  ∀ (mask : Nat) (i : Instr), i.wf mask = true → decode mask (encode i) = .ok i

/-- A word that decodes is the word of what it decodes to, which is well-formed: no bit of a word is dropped and each
word has one meaning (R93, R94, R99, R100). -/
def Obligations.EncodeOfDecode : Prop :=
  ∀ (mask : Nat) (w : TransWord) (i : Instr), decode mask w = .ok i → encode i = w ∧ i.wf mask = true

/-- The words of R100's list are refused, and with them the 32-bit words of kind 8 or 9 and the 64-bit words of kind 1
to 7, which R91 and R95 do not know: that part is the model's choice, the DEDUCED `wrongLength` of log 10. No other word
is refused. Fields are said by arithmetic on the word's number. The step refuses such a word by name and position; that
the run ends there is the model's choice (log 14). -/
def Obligations.IllFormedWordsAreRefused : Prop :=
  (∀ (mask : Nat) (w : BitVec 32), (∃ e, decode mask (.t w) = .error e) ↔
      (w.toNat / 2 ^ 28 = 0 ∨ 8 ≤ w.toNat / 2 ^ 28)
      ∨ (w.toNat / 2 ^ 28 ≠ 1 ∧ w.toNat % 2 ^ 8 ≠ 0)
      ∨ (w.toNat / 2 ^ 28 ≠ 1 ∧ w.toNat / 2 ^ 28 ≠ 2 ∧ w.toNat / 2 ^ 8 % 2 ^ 20 ≠ 0))
  ∧ (∀ (mask : Nat) (w : BitVec 64), (∃ e, decode mask (.c w) = .error e) ↔
      (w.toNat / 2 ^ 60 ≠ 8 ∧ w.toNat / 2 ^ 60 ≠ 9)
      ∨ w.toNat / 2 ^ 56 % 2 ^ 4 ≠ 0
      ∨ mask < w.toNat / 2 ^ 36 % 2 ^ 20
      ∨ mask < w.toNat / 2 ^ 16 % 2 ^ 20)
  ∧ (∀ (s : State) (w : TransWord) (rest : List TransWord) (e : IllFormed),
      s.trace = w :: rest → decode s.cfg.busMask w = .error e → step s = .refused (.illFormed s.pos e))

/-- R95: the top nibble of the next word says whether it is 32 or 64 bits; anything else is refused. -/
def Obligations.LengthByTopNibble : Prop :=
  (∀ (w : BitVec 32) (ds : List Nibble), 1 ≤ w.toNat / 2 ^ 28 → w.toNat / 2 ^ 28 ≤ 7 →
      nextWord ((TransWord.t w).digits ++ ds) = .ok (.t w, ds))
  ∧ (∀ (w : BitVec 64) (ds : List Nibble), (w.toNat / 2 ^ 60 = 8 ∨ w.toNat / 2 ^ 60 = 9) →
      nextWord ((TransWord.c w).digits ++ ds) = .ok (.c w, ds))
  ∧ (∀ (d : Nibble) (ds : List Nibble), (d.toNat = 0 ∨ 0xA ≤ d.toNat) →
      nextWord (d :: ds) = .error (.reservedKind d))

/-! ### The step -/

/-- A step performs the instruction the next word decodes to, on the state with that word taken; where that instruction
has no transition because a fault is recorded, the word is dropped and the block stays as it is (log 9); with no word
the block waits (R292). -/
def Obligations.StepPerformsTheNextWord : Prop :=
  (∀ (s : State) (w : TransWord) (rest : List TransWord) (i : Instr),
      s.trace = w :: rest → decode s.cfg.busMask w = .ok i →
      (∀ t, exec i { s with trace := rest, pos := s.pos + 1 } = .next t → step s = .next t)
      ∧ (∀ r, exec i { s with trace := rest, pos := s.pos + 1 } = .refused r → step s = .refused r)
      ∧ (∀ f, exec i { s with trace := rest, pos := s.pos + 1 } = .fault f →
          step s = .next { s with trace := rest, pos := s.pos + 1 }))
  ∧ (∀ s : State, s.trace = [] → step s = .next s)

/-! ### The bus (40_bus.md) -/

/-- R125, R260: a read of a `Default` slot (every RD row and BUSR) raises fault 1 with the masked address, and writes
nothing else; no byte is returned. Nothing else raises it. -/
def Obligations.UnmappedReadRaises : Prop :=
  (∀ (s : State) (i : Instr) (addr : BusAddr), i.operation = .busr addr → s.fault = none →
      s.rdh.lookup (slotOf s addr) = .default →
      exec i s = .next { s with fault := some (.unmappedRead (slotOf s addr)) })
  ∧ (∀ a, (FaultRecord.unmappedRead a).code = 1)
  ∧ (∀ (s t : State) (i : Instr) (a : Nat), s.fault = none → exec i s = .next t → t.fault = some (.unmappedRead a) →
      ∃ addr, i.operation = .busr addr ∧ a = slotOf s addr ∧ s.rdh.lookup a = .default)

/-- R261, R155: a read or write of an `Apu` slot outside 0x4000..0x4017 raises fault 2 with the masked address and
stores, reloads and returns nothing. Nothing else raises it, and in the standard configuration nothing does. -/
def Obligations.RegisterIndexOutOfRangeRaises : Prop :=
  (∀ (s : State) (i : Instr) (addr : BusAddr), i.operation = .busr addr → s.fault = none →
      s.rdh.lookup (slotOf s addr) = .apu → ¬(0x4000 ≤ slotOf s addr ∧ slotOf s addr ≤ 0x4017) →
      exec i s = .next { s with fault := some (.regIndexOutOfRange (slotOf s addr)) })
  ∧ (∀ (s : State) (i : Instr) (addr : BusAddr) (v : Byte), i.operation = .busw addr v → s.fault = none →
      s.wrh.lookup (slotOf s addr) = .apu → ¬(0x4000 ≤ slotOf s addr ∧ slotOf s addr ≤ 0x4017) →
      exec i s = .next { s with fault := some (.regIndexOutOfRange (slotOf s addr)) })
  ∧ (∀ a, (FaultRecord.regIndexOutOfRange a).code = 2)
  ∧ (∀ (s t : State) (i : Instr) (a : Nat), s.fault = none → exec i s = .next t →
      t.fault = some (.regIndexOutOfRange a) → ¬StandardTables s ∧ ¬(0x4000 ≤ a ∧ a ≤ 0x4017)
        ∧ ∃ addr, a = slotOf s addr
          ∧ ((i.operation = .busr addr ∧ s.rdh.lookup a = .apu)
            ∨ ∃ v, i.operation = .busw addr v ∧ s.wrh.lookup a = .apu))

/-- R157: a read (RD.00 to RD.17, or BUSR through a mask that reaches the register file) completes with the stored
byte returned and nothing else changed. -/
def Obligations.ReadReturnsTheStoredByte : Prop :=
  ∀ (s : State) (i : Instr) (addr : BusAddr) (k : Fin 24), i.operation = .busr addr → ReadReaches s addr k →
    exec i s = .next { s with replies := s.replies ++ [s.reg[k]] }

/-- R128: an access to a slot of an outside device completes; a write changes nothing, a read returns the device's
byte, whatever it is. -/
def Obligations.ExternalSlotAccess : Prop :=
  (∀ (s : State) (i : Instr) (addr : BusAddr) (v : Byte) (id : BitVec 16), i.operation = .busw addr v →
      s.fault = none → s.wrh.lookup (slotOf s addr) = .ext id → exec i s = .next s)
  ∧ (∀ (s : State) (i : Instr) (addr : BusAddr) (id : BitVec 16), i.operation = .busr addr →
      s.fault = none → s.rdh.lookup (slotOf s addr) = .ext id →
      exec i s = .next { s with
        replies := s.replies ++ [Config.extRead s.draws id.toNat (slotOf s addr)], draws := s.draws + 1 })

/-- R126: a write to a `Default` slot completes and changes nothing. -/
def Obligations.UnmappedWriteIsDiscarded : Prop :=
  ∀ (s : State) (i : Instr) (addr : BusAddr) (v : Byte), i.operation = .busw addr v → s.fault = none →
    s.wrh.lookup (slotOf s addr) = .default → exec i s = .next s

/-- R70: the slot is the address modulo `2^w`: accesses at addresses that agree there do the same. -/
def Obligations.AddressesAliasModuloTheMask : Prop :=
  (∀ (s : State) (i j : Instr) (a b : BusAddr) (v : Byte), i.operation = .busw a v → j.operation = .busw b v →
      a.toNat % 2 ^ s.cfg.busWidth = b.toNat % 2 ^ s.cfg.busWidth → exec i s = exec j s)
  ∧ (∀ (s : State) (i j : Instr) (a b : BusAddr), i.operation = .busr a → j.operation = .busr b →
      a.toNat % 2 ^ s.cfg.busWidth = b.toNat % 2 ^ s.cfg.busWidth → exec i s = exec j s)

/-- R123: MAPR completes; afterwards the slots of the range, ends included, hold the target in the read table and
every other slot what it held; nothing else changes. An empty range maps nothing. An end above the mask is refused by
the decoder. -/
def Obligations.MapReadSetsTheRange : Prop :=
  (∀ (s : State) (first last : BusAddr) (target : Target), s.fault = none → s.rdh.wf s.cfg.busMask = true →
      target.wf = true →
      ∃ tbl, exec (.mapr first last target) s = .next { s with rdh := tbl }
        ∧ ∀ a, tbl.lookup a = if first.toNat ≤ a ∧ a ≤ last.toNat then target else s.rdh.lookup a)
  ∧ (∀ (mask : Nat) (first last : BusAddr) (target : Target), mask < first.toNat ∨ mask < last.toNat →
      ∃ e, decode mask (encode (.mapr first last target)) = .error e)

/-- R124: MAPW likewise on the write table. -/
def Obligations.MapWriteSetsTheRange : Prop :=
  (∀ (s : State) (first last : BusAddr) (target : Target), s.fault = none → s.wrh.wf s.cfg.busMask = true →
      target.wf = true →
      ∃ tbl, exec (.mapw first last target) s = .next { s with wrh := tbl }
        ∧ ∀ a, tbl.lookup a = if first.toNat ≤ a ∧ a ≤ last.toNat then target else s.wrh.lookup a)
  ∧ (∀ (mask : Nat) (first last : BusAddr) (target : Target), mask < first.toNat ∨ mask < last.toNat →
      ∃ e, decode mask (encode (.mapw first last target)) = .error e)

/-- Two canonical tables that answer alike at every slot are the same data (log 8; R46 gives a table by its slots). -/
def Obligations.CanonicalTablesAreDeterminedByTheirSlots : Prop :=
  ∀ (mask : Nat) (t u : HandlerTable), t.wf mask = true → u.wf mask = true → (∀ a, t.lookup a = u.lookup a) → t = u

/-! ### The register file (41_register_file.md) -/

/-- R140: a write that reaches register `k` (WR.00 to WR.17, or BUSW through a mask that reaches the register file)
completes: `k` holds the byte, every other register what it held; the slot `k` loads (R38) holds its load value, every
other slot what it held; nothing else of the block changes. -/
def Obligations.WriteStoresAndReloads : Prop :=
  ∀ (s : State) (i : Instr) (addr : BusAddr) (v : Byte) (k : Fin 24), i.operation = .busw addr v →
    WriteReaches s addr k →
    ∃ t, exec i s = .next t
      ∧ t = { s with reg := t.reg, timer := t.timer, published := keptAfter s }
      ∧ (∀ j : Fin 24, t.reg[j] = if j = k then v else s.reg[j])
      ∧ (∀ c : Fin 5, t.timer[c] = if k = loadIndex c then loadValue s.cfg c v else s.timer[c])

/-- R69, R99: in the standard configuration row `WR.k` writes register `k` and row `RD.k` reads it, whatever address
bits 19:16 are, for each of the 24 rows. -/
def Obligations.RowsReachTheirRegisters : Prop :=
  ∀ (s : State) (k : Fin 24) (hi : Nibble) (v : Byte), Standard s →
    (∃ t, exec (wrRow k hi v) s = .next t ∧ t.reg[k] = v ∧ ∀ j : Fin 24, j ≠ k → t.reg[j] = s.reg[j])
    ∧ exec (rdRow k hi) s = .next { s with replies := s.replies ++ [s.reg[k]] }

/-- R144, R150, and the write of R141: WR.00, WR.04, WR.0C store the byte, write no timer, and bit 5 is the halt bit of
slots 0, 1, 3. -/
def Obligations.ControlWritesSetTheHaltBit : Prop :=
  ∀ (s : State) (hi : Nibble) (v : Byte), Standard s →
    (∃ t, exec (.wr00 hi v) s = .next t ∧ t = { s with reg := s.reg.set 0x00 v, published := keptAfter s }
      ∧ halt t.reg 0 = v.getLsbD 5)
    ∧ (∃ t, exec (.wr04 hi v) s = .next t ∧ t = { s with reg := s.reg.set 0x04 v, published := keptAfter s }
      ∧ halt t.reg 1 = v.getLsbD 5)
    ∧ (∃ t, exec (.wr0C hi v) s = .next t ∧ t = { s with reg := s.reg.set 0x0C v, published := keptAfter s }
      ∧ halt t.reg 3 = v.getLsbD 5)

/-- R142, R145, R148: WR.02, WR.06, WR.0A store the byte, write no timer, and it becomes the low part of the channel's
period. -/
def Obligations.PeriodLowWritesSetTheLowByte : Prop :=
  ∀ (s : State) (hi : Nibble) (v : Byte), Standard s →
    (∃ t, exec (.wr02 hi v) s = .next t ∧ t = { s with reg := s.reg.set 0x02 v, published := keptAfter s }
      ∧ pulse1Period t.snapshot = v.toNat + 256 * (s.reg[0x03].toNat % 8))
    ∧ (∃ t, exec (.wr06 hi v) s = .next t ∧ t = { s with reg := s.reg.set 0x06 v, published := keptAfter s }
      ∧ pulse2Period t.snapshot = v.toNat + 256 * (s.reg[0x07].toNat % 8))
    ∧ (∃ t, exec (.wr0A hi v) s = .next t ∧ t = { s with reg := s.reg.set 0x0A v, published := keptAfter s }
      ∧ trianglePeriod t.snapshot = v.toNat + 256 * (s.reg[0x0B].toNat % 8))

/-- R143, R146, R149, R152: WR.03, WR.07, WR.0B, WR.0F store the byte and load slots 0, 1, 2, 3 with
`TABLE[v >> 3] * SCALE`; the low three bits are the high part of the period, except at 0x0F. -/
def Obligations.PeriodHighWritesReload : Prop :=
  ∀ (s : State) (hi : Nibble) (v : Byte), Standard s →
    (∃ t, exec (.wr03 hi v) s = .next t
      ∧ t = { s with reg := s.reg.set 0x03 v, published := keptAfter s,
                     timer := s.timer.set 0 (s.cfg.table.toList.getD (v.toNat / 8) 0 * s.cfg.scale) }
      ∧ pulse1Period t.snapshot = s.reg[0x02].toNat + 256 * (v.toNat % 8))
    ∧ (∃ t, exec (.wr07 hi v) s = .next t
      ∧ t = { s with reg := s.reg.set 0x07 v, published := keptAfter s,
                     timer := s.timer.set 1 (s.cfg.table.toList.getD (v.toNat / 8) 0 * s.cfg.scale) }
      ∧ pulse2Period t.snapshot = s.reg[0x06].toNat + 256 * (v.toNat % 8))
    ∧ (∃ t, exec (.wr0B hi v) s = .next t
      ∧ t = { s with reg := s.reg.set 0x0B v, published := keptAfter s,
                     timer := s.timer.set 2 (s.cfg.table.toList.getD (v.toNat / 8) 0 * s.cfg.scale) }
      ∧ trianglePeriod t.snapshot = s.reg[0x0A].toNat + 256 * (v.toNat % 8))
    ∧ exec (.wr0F hi v) s = .next
        { s with reg := s.reg.set 0x0F v, published := keptAfter s,
                 timer := s.timer.set 3 (s.cfg.table.toList.getD (v.toNat / 8) 0 * s.cfg.scale) }

/-- R147: WR.08 stores the byte, loads slot 4 with `(v & 0x7F) * SCALE`, and bit 7 becomes the halt bit of slots 2 and
4; slot 2 is not written. -/
def Obligations.TriangleControlWriteLoadsAndHalts : Prop :=
  ∀ (s : State) (hi : Nibble) (v : Byte), Standard s →
    ∃ t, exec (.wr08 hi v) s = .next t
      ∧ t = { s with reg := s.reg.set 0x08 v, published := keptAfter s,
                     timer := s.timer.set 4 (v.toNat % 128 * s.cfg.scale) }
      ∧ halt t.reg 2 = v.getLsbD 7 ∧ halt t.reg 4 = v.getLsbD 7 ∧ t.timer[2] = s.timer[2]

/-- R153: WR.15 stores the byte and nothing else; its bits 0 to 3 enable pulse-1, pulse-2, triangle, noise (R36). -/
def Obligations.EnableWriteStoresOnly : Prop :=
  ∀ (s : State) (hi : Nibble) (v : Byte), Standard s →
    ∃ t, exec (.wr15 hi v) s = .next t
      ∧ t = { s with reg := s.reg.set 0x15 v, published := keptAfter s }
      ∧ enabled t.reg .pulse1 = v.getLsbD 0 ∧ enabled t.reg .pulse2 = v.getLsbD 1
      ∧ enabled t.reg .triangle = v.getLsbD 2 ∧ enabled t.reg .noise = v.getLsbD 3

/-- R154, R151: WR.01, WR.05, WR.09, WR.0D, WR.0E, WR.10 to WR.14, WR.16, WR.17 store the byte and nothing else. -/
def Obligations.WritesWithoutRoleStoreOnly : Prop :=
  ∀ (s : State) (k : Fin 24) (hi : Nibble) (v : Byte), Standard s →
    k.val ∈ [0x01, 0x05, 0x09, 0x0D, 0x0E, 0x10, 0x11, 0x12, 0x13, 0x14, 0x16, 0x17] →
    exec (wrRow k hi v) s = .next { s with reg := s.reg.set k v, published := keptAfter s }

/-- R21: every byte is legal in every register and stored as written, and a register changes only by a write that
reaches it or by RESET; in particular TICK and CONSUMED never write the register file. -/
def Obligations.RegistersChangeOnlyByWrites : Prop :=
  (∀ (s : State) (i : Instr) (addr : BusAddr) (v : Byte) (k : Fin 24), i.operation = .busw addr v →
      WriteReaches s addr k → ∃ t, exec i s = .next t ∧ t.reg[k] = v)
  ∧ (∀ (s t : State) (i : Instr) (k : Fin 24), exec i s = .next t → t.reg[k] ≠ s.reg[k] →
      i = .reset ∨ ∃ addr v, i.operation = .busw addr v ∧ WriteReaches s addr k ∧ t.reg[k] = v)

/-- R159: a byte written to register `k` is what a later read of `k` returns, after any operations that are neither
RESET nor a bus write at slot `0x4000 + k`. -/
def Obligations.RegisterRoundTrip : Prop :=
  ∀ (s s1 s2 : State) (k : Fin 24) (w r : Instr) (aw ar : BusAddr) (v : Byte) (between : List Instr),
    w.operation = .busw aw v → WriteReaches s aw k → exec w s = .next s1 →
    (∀ i ∈ between, i ≠ .reset ∧ ∀ addr x, i.operation = .busw addr x → slotOf s addr ≠ 0x4000 + k.val) →
    performAll between s1 = .next s2 →
    r.operation = .busr ar → ReadReaches s2 ar k →
    exec r s2 = .next { s2 with replies := s2.replies ++ [v] }

/-! ### The timers (42_timer_sequencer.md) -/

/-- R181, R182: TICK completes in every sink state; each slot above zero whose gate is open goes down by one, every
other slot and everything else of the block stays. -/
def Obligations.TickCountsUngatedSlots : Prop :=
  ∀ s : State, s.fault = none →
    ∃ t, exec .tick s = .next t
      ∧ t = { s with timer := t.timer, published := keptAfter s }
      ∧ ∀ c : Fin 5, t.timer[c] =
          if 0 < s.timer[c] ∧ ¬(s.cfg.tickPolicy = .gated ∧ haltBit s.reg c = true) then s.timer[c] - 1
          else s.timer[c]

/-- R183: the tick laws, and their consequence: a slot whose gate stays open is silent after exactly as many TICKs as
its value, and not before. -/
def Obligations.TickLaws : Prop :=
  (∀ (s t : State) (c : Fin 5), exec .tick s = .next t →
      (s.cfg.tickPolicy = .gated → haltBit s.reg c = true → t.timer[c] = s.timer[c])
      ∧ (s.cfg.tickPolicy = .gated → haltBit s.reg c = false → 0 < s.timer[c] → t.timer[c] = s.timer[c] - 1)
      ∧ (s.cfg.tickPolicy = .unconditional → 0 < s.timer[c] → t.timer[c] = s.timer[c] - 1)
      ∧ (s.timer[c] = 0 → t.timer[c] = 0) ∧ t.timer[c] ≤ s.timer[c])
  ∧ (∀ (s : State) (c : Fin 5) (m : Nat), s.fault = none →
      (s.cfg.tickPolicy = .gated → haltBit s.reg c = false) →
      ∃ t, performAll (List.replicate m .tick) s = .next t ∧ (t.timer[c] = 0 ↔ s.timer[c] ≤ m))

/-- Under `Gated` a slot whose halt bit is set keeps its value through any number of TICKs (70_reset_and_hazards.md
R306, marked derived from R182, R183). -/
def Obligations.HaltedSlotHoldsItsValue : Prop :=
  ∀ (s : State) (c : Fin 5) (m : Nat), s.fault = none → s.cfg.tickPolicy = .gated → haltBit s.reg c = true →
    ∃ t, performAll (List.replicate m .tick) s = .next t ∧ t.timer[c] = s.timer[c]

/-- R170: a slot changes only by TICK, which takes one from it, by a write to its register, which loads it, or by
RESET, which makes it zero. -/
def Obligations.TimersChangeOnlyByTickReloadReset : Prop :=
  ∀ (s t : State) (i : Instr) (c : Fin 5), exec i s = .next t → t.timer[c] ≠ s.timer[c] →
    (i = .tick ∧ t.timer[c] + 1 = s.timer[c])
    ∨ (∃ addr v, i.operation = .busw addr v ∧ WriteReaches s addr (loadIndex c) ∧ t.timer[c] = loadValue s.cfg c v)
    ∨ (i = .reset ∧ t.timer[c] = 0)

/-! ### The synthesizer (43_synthesizer.md) -/

/-- R202: the frequencies, and the phases as exact rationals. -/
def Obligations.PhaseFormulas : Prop :=
  ∀ p n : Nat,
    frequency pulseDiv p = 1789773 / (16 * ((p : Rat) + 1)) ∧ frequency triDiv p = 1789773 / (32 * ((p : Rat) + 1))
    ∧ phase (frequency pulseDiv p) n = frac ((1789773 * n : Rat) / (705600 * ((p : Rat) + 1)))
    ∧ phase (frequency triDiv p) n = frac ((1789773 * n : Rat) / (1411200 * ((p : Rat) + 1)))

/-- R204, R206, R208, R210, R212: what each channel contributes, and when it is silent. -/
def Obligations.ChannelSamples : Prop :=
  ∀ (snap : Snapshot) (n : Nat) (v : Rat),
    (voice snap n v .pulse1 =
      if snap.reg[0x15].getLsbD 0 = true ∧ 0 < snap.timer[0]
          ∧ 8 ≤ snap.reg[0x02].toNat + 256 * (snap.reg[0x03].toNat % 8) then
        Machine.sq (frac ((1789773 * n : Rat) / (705600 * ((pulse1Period snap : Rat) + 1))))
      else 0)
    ∧ (voice snap n v .pulse2 =
      if snap.reg[0x15].getLsbD 1 = true ∧ 0 < snap.timer[1]
          ∧ 8 ≤ snap.reg[0x06].toNat + 256 * (snap.reg[0x07].toNat % 8) then
        Machine.sq (frac ((1789773 * n : Rat) / (705600 * ((pulse2Period snap : Rat) + 1))))
      else 0)
    ∧ (voice snap n v .triangle =
      if snap.reg[0x15].getLsbD 2 = true ∧ 0 < snap.timer[2] ∧ 0 < snap.timer[4] then
        Machine.tri (frac ((1789773 * n : Rat) / (1411200 * ((trianglePeriod snap : Rat) + 1))))
      else 0)
    ∧ (voice snap n v .noise =
      if snap.reg[0x15].getLsbD 3 = true ∧ 0 < snap.timer[3] then v else 0)

/-- The square wave of R205 (the spec's decision D11): `+1` in the first half of the phase, `-1` in the second. -/
def Obligations.SquareWaveShape : Prop :=
  ∀ x : Rat, 0 ≤ x → x < 1 → (x < 1 / 2 → Machine.sq x = 1) ∧ (1 / 2 ≤ x → Machine.sq x = -1)

/-- The triangle wave of R209 (the spec's decision D11): its three pieces, its values at the quarters, its range, its
slope, and that it comes back to 0 at the wrap. -/
def Obligations.TriangleWaveShape : Prop :=
  (∀ x : Rat, 0 ≤ x → x < 1 →
    (x < 1 / 4 → tri x = 4 * x) ∧ (1 / 4 ≤ x → x < 3 / 4 → tri x = 2 - 4 * x) ∧ (3 / 4 ≤ x → tri x = 4 * x - 4)
      ∧ |tri x| ≤ 4 * (1 - x))
  ∧ tri 0 = 0 ∧ tri (1 / 4) = 1 ∧ tri (1 / 2) = 0 ∧ tri (3 / 4) = -1
  ∧ (∀ x : Rat, 0 ≤ x → x < 1 → -1 ≤ tri x ∧ tri x ≤ 1)
  ∧ (∀ x y : Rat, 0 ≤ x → x < 1 → 0 ≤ y → y < 1 → |tri x - tri y| ≤ 4 * |x - y|)

/-- R213, R215: the fixed-gain mix and its bound, for a noise value in [-1, 1]. -/
def Obligations.FixedGainMix : Prop :=
  ∀ (snap : Snapshot) (n : Nat) (v : Rat), -1 ≤ v → v ≤ 1 →
    mix .fixedGain snap n v =
      (voice snap n v .pulse1 + voice snap n v .pulse2) * (752 / 10000) + voice snap n v .triangle * (851 / 10000)
        + voice snap n v .noise * (494 / 10000) + 0 * (335 / 10000)
    ∧ |mix .fixedGain snap n v| ≤ 2849 / 10000

/-- R214: the arithmetic mean of the active channels, 0 when there is none, and its bound. -/
def Obligations.ArithmeticMeanMix : Prop :=
  ∀ (snap : Snapshot) (n : Nat) (v : Rat), -1 ≤ v → v ≤ 1 →
    ((∀ ch, active snap ch = false) → mix .arithmeticMean snap n v = 0)
    ∧ mix .arithmeticMean snap n v
        * ((if active snap .pulse1 then 1 else 0) + (if active snap .pulse2 then 1 else 0)
            + (if active snap .triangle then 1 else 0) + (if active snap .noise then 1 else 0))
      = voice snap n v .pulse1 + voice snap n v .pulse2 + voice snap n v .triangle + voice snap n v .noise
    ∧ |mix .arithmeticMean snap n v| ≤ 1

/-- Under the default `PCM_SCALE` no sample is clipped, under either policy (R217, marked derived from R213, R214,
R216). The noise value of every sample lies in [-1, 1], whatever the source (R211), so this, and the bounds of the mixes,
reach the samples of a pass. -/
def Obligations.ClippingIsNeverReached : Prop :=
  (∀ (c : Config) (snap : Snapshot) (n : Nat) (v : Rat), c.pcmScale = 32767 → -1 ≤ v → v ≤ 1 →
    sample c snap n v = trunc (mix c.mixPolicy snap n v * 32767)
    ∧ -32767 ≤ sample c snap n v ∧ sample c snap n v ≤ 32767)
  ∧ (∀ n : Nat, -1 ≤ noise n ∧ noise n ≤ 1)
  ∧ (∀ (c : Config) (snap : Snapshot) (n : Nat), c.pcmScale = 32767 →
    sample c snap n (noise n) = trunc (mix c.mixPolicy snap n (noise n) * 32767)
    ∧ -32767 ≤ sample c snap n (noise n) ∧ sample c snap n (noise n) ≤ 32767)

/-- R216: a sample is the scaled mix without its fraction, clipped to the 16-bit range. -/
def Obligations.SampleIsTruncatedTowardZero : Prop :=
  ∀ (scale : Nat) (q : Rat),
    (∀ (c : Config) (snap : Snapshot) (n : Nat) (v : Rat),
      sample c snap n v = toPcm c.pcmScale (mix c.mixPolicy snap n v))
    ∧ -32768 ≤ toPcm scale q ∧ toPcm scale q ≤ 32767
    ∧ (32767 ≤ q * scale → toPcm scale q = 32767)
    ∧ (q * scale ≤ -32768 → toPcm scale q = -32768)
    ∧ (0 ≤ q → q * scale < 32768 → (toPcm scale q : Rat) ≤ q * scale ∧ q * scale < toPcm scale q + 1)
    ∧ (q ≤ 0 → -32769 < q * scale → q * scale ≤ (toPcm scale q : Rat) ∧ (toPcm scale q : Rat) - 1 < q * scale)

/-- R218, R60: sample `j` of a pass lies at bytes `2j` (low) and `2j + 1` (high), two's complement. -/
def Obligations.SampleBytesLowFirst : Prop :=
  ∀ (c : Config) (snap : Snapshot) (count n j : Nat), j < count →
    ∃ lo hi : Byte, (passBytes c snap count n)[2 * j]? = some lo ∧ (passBytes c snap count n)[2 * j + 1]? = some hi
      ∧ (lo.toNat + 256 * hi.toNat : Int) = sample c snap (n + j) (noise (n + j)) % 65536

/-- R220: a pass writes exactly two bytes a sample whichever channels are active, and zero bytes when none is. -/
def Obligations.PassShape : Prop :=
  (∀ (c : Config) (snap : Snapshot) (count n : Nat), (passBytes c snap count n).length = 2 * count)
  ∧ (∀ (c : Config) (snap : Snapshot) (count n : Nat), (∀ ch, active snap ch = false) →
      passBytes c snap count n = List.replicate (2 * count) 0)

/-- The synthesizer reads the registers 0x02, 0x03, 0x06, 0x07, 0x0A, 0x0B, 0x15 and of a timer only whether it is
zero: two snapshots that agree there give the same bytes (R223, marked derived from R203 to R210). -/
def Obligations.SynthesizerReadsOnlyItsInputs : Prop :=
  ∀ (c : Config) (p q : Snapshot) (count n : Nat),
    p.reg[0x02] = q.reg[0x02] → p.reg[0x03] = q.reg[0x03] → p.reg[0x06] = q.reg[0x06] → p.reg[0x07] = q.reg[0x07] →
    p.reg[0x0A] = q.reg[0x0A] → p.reg[0x0B] = q.reg[0x0B] → p.reg[0x15] = q.reg[0x15] →
    (∀ k : Fin 5, p.timer[k] = 0 ↔ q.timer[k] = 0) →
    passBytes c p count n = passBytes c q count n

/-! ### The sink (44_audio_sink.md) -/

/-- R240: START from `Idle` completes: K silent buffers, all submitted in ascending order, `cur = 0`, `Running`;
nothing else changes. (The premise on `buf` is part of the invariant.) -/
def Obligations.StartSubmitsSilence : Prop :=
  ∀ s : State, s.fault = none → s.sink = .idle → s.buf.length = s.cfg.buffers →
    exec .start s = .next { s with
      buf := List.replicate s.cfg.buffers (List.replicate (2 * s.cfg.bufferSamples) 0)
      pcmOut := s.pcmOut ++ List.replicate s.cfg.buffers (List.replicate (2 * s.cfg.bufferSamples) 0)
      queue := s.queue ++ List.range s.cfg.buffers
      cur := 0
      sink := .running }

/-- R247: START in `Running` or `Stopped` is refused. -/
def Obligations.StartOutsideIdleIsRefused : Prop :=
  ∀ s : State, s.fault = none → s.sink ≠ .idle → exec .start s = .refused (.startOutsideIdle s.sink)

/-- R243, R200: CONSUMED in `Running` under `AtRefill` completes: the oldest buffer leaves the queue, a pass over the
present registers and timers fills `scratch`, the buffer at `cur` takes it and is submitted, `cur` turns modulo K;
nothing else changes. (The premise on `cur` is part of the invariant.) -/
def Obligations.ConsumedRefillsAndResubmits : Prop :=
  ∀ s : State, s.fault = none → s.sink = .running → s.cur < s.buf.length → s.cfg.snapshotMode = .atRefill →
    exec .consumed s = .next { s with
      queue := s.queue.tail ++ [s.cur]
      scratch := passBytes s.cfg ⟨s.reg, s.timer⟩ s.cfg.bufferSamples s.n
      n := s.n + s.cfg.bufferSamples
      buf := s.buf.set s.cur (passBytes s.cfg ⟨s.reg, s.timer⟩ s.cfg.bufferSamples s.n)
      pcmOut := s.pcmOut ++ [passBytes s.cfg ⟨s.reg, s.timer⟩ s.cfg.bufferSamples s.n]
      cur := (s.cur + 1) % s.cfg.buffers
      published := [] }

/-- Under `LatestPublished` a CONSUMED in `Running` does the same from one of the snapshots since the last pass (R81;
which one is a free value, log 5). -/
def Obligations.ConsumedUnderLatestPublished : Prop :=
  ∀ s : State, s.fault = none → s.sink = .running → s.cur < s.buf.length → s.cfg.snapshotMode = .latestPublished →
    ∃ snap ∈ s.published ++ [⟨s.reg, s.timer⟩],
      exec .consumed s = .next { s with
        queue := s.queue.tail ++ [s.cur]
        scratch := passBytes s.cfg snap s.cfg.bufferSamples s.n
        n := s.n + s.cfg.bufferSamples
        buf := s.buf.set s.cur (passBytes s.cfg snap s.cfg.bufferSamples s.n)
        pcmOut := s.pcmOut ++ [passBytes s.cfg snap s.cfg.bufferSamples s.n]
        cur := (s.cur + 1) % s.cfg.buffers
        published := []
        draws := s.draws + 1 }

/-- Under `LatestPublished` the snapshots a pass may use after an operation that is neither RESET nor CONSUMED are those
before it and the present one; after CONSUMED, in any sink state, and after RESET only the present one (R81: any point
"after the previous CONSUMED (or after RESET if there is none) and not after the present one"). The field that holds
them is the model's own (log 5). -/
def Obligations.SnapshotsSinceTheLastConsumedStayReadable : Prop :=
  ∀ (s t : State) (i : Instr), s.cfg.snapshotMode = .latestPublished → exec i s = .next t →
    (i ≠ .reset → i ≠ .consumed →
      ∀ snap, snap ∈ t.published ++ [t.snapshot] ↔ snap ∈ s.published ++ [s.snapshot] ∨ snap = t.snapshot)
    ∧ (i = .reset ∨ i = .consumed → t.published ++ [t.snapshot] = [t.snapshot])

/-- R246: CONSUMED outside `Running` completes and changes nothing of the block; the model's own list of kept snapshots,
which is empty under `AtRefill`, ends with it (R81, log 5). -/
def Obligations.ConsumedOutsideRunningHasNoEffect : Prop :=
  ∀ s : State, s.fault = none → s.sink ≠ .running →
    exec .consumed s = .next { s with published := [] } ∧ (s.published = [] → exec .consumed s = .next s)

/-- R245: STOP completes: in `Running` it empties the queue and the sink is `Stopped`, elsewhere it changes nothing. -/
def Obligations.StopEndsTheStream : Prop :=
  ∀ s : State, s.fault = none →
    (s.sink = .running → exec .stop s = .next { s with queue := [], sink := .stopped })
    ∧ (s.sink ≠ .running → exec .stop s = .next s)

/-- START and then `m` CONSUMED, from any reachable `Idle` state under `AtRefill`: K silent buffers followed by `m`
pass outputs whose concatenation is one gapless run of samples (R250, marked derived from R243, R221, R222). -/
def Obligations.OutputStreamIsGapless : Prop :=
  ∀ (s : State) (m : Nat), Inv s → s.fault = none → s.sink = .idle → s.cfg.snapshotMode = .atRefill →
    ∃ t outs, performAll (.start :: List.replicate m .consumed) s = .next t
      ∧ t.n = s.n + m * s.cfg.bufferSamples
      ∧ t.pcmOut = List.replicate s.cfg.buffers (List.replicate (2 * s.cfg.bufferSamples) 0) ++ outs
      ∧ outs.length = m
      ∧ outs.flatten = passBytes s.cfg ⟨s.reg, s.timer⟩ (m * s.cfg.bufferSamples) s.n

/-- `pcm_out` "only grows" (R47) under every operation but RESET. -/
def Obligations.OutputOnlyGrows : Prop :=
  ∀ (s t : State) (i : Instr), exec i s = .next t → i ≠ .reset → ∃ more, t.pcmOut = s.pcmOut ++ more

/-- The sample counter advances by `BUFFER_SAMPLES` in a CONSUMED in `Running` and by nothing else; only RESET returns
it to 0 (R37, R221). -/
def Obligations.CounterAdvancesOnlyBySynthesis : Prop :=
  ∀ (s t : State) (i : Instr), exec i s = .next t →
    (i = .reset → t.n = 0)
    ∧ (i ≠ .reset → t.n = s.n + if i = .consumed ∧ s.sink = .running then s.cfg.bufferSamples else 0)

/-! ### Faults and reset (60_exceptions.md, 70_reset_and_hazards.md) -/

/-- R263: while a fault is recorded RESET is accepted and clears it, and every other operation has no transition. -/
def Obligations.FaultedBlockAcceptsOnlyReset : Prop :=
  ∀ (s : State) (f : FaultRecord), s.fault = some f →
    (∃ t, exec .reset s = .next t ∧ t.fault = none)
    ∧ (∀ i : Instr, i ≠ .reset → exec i s = .fault (.stuck f))

/-- R262: an operation that raises a fault writes nothing but `fault` and returns no byte. -/
def Obligations.FaultsArePrecise : Prop :=
  ∀ (s t : State) (i : Instr) (f : FaultRecord), s.fault = none → exec i s = .next t → t.fault = some f →
    t = { s with fault := some f }

/-- R290: RESET completes in every state and installs the values of R51; the parameters are unchanged. -/
def Obligations.ResetInstallsTheResetState : Prop :=
  ∀ s : State, ∃ t, exec .reset s = .next t
    ∧ (∀ k : Fin 24, t.reg[k] = 0) ∧ (∀ c : Fin 5, t.timer[c] = 0) ∧ t.n = 0 ∧ t.cur = 0 ∧ t.sink = .idle
    ∧ t.buf = List.replicate s.cfg.buffers (List.replicate (2 * s.cfg.bufferSamples) 0)
    ∧ t.scratch = List.replicate (2 * s.cfg.bufferSamples) 0
    ∧ (∀ a, t.rdh.lookup a = .default ∧ t.wrh.lookup a = .default)
    ∧ t.pcmOut = [] ∧ t.queue = [] ∧ t.fault = none ∧ t.cfg = s.cfg

/-- The model's choice (logs 4 to 7): RESET leaves what lies outside the block (bytes returned, draws counted, words
presented) and forgets the kept snapshots. -/
def Obligations.ResetLeavesTheOutsideAlone : Prop :=
  ∀ s t : State, exec .reset s = .next t →
    t.replies = s.replies ∧ t.draws = s.draws ∧ t.trace = s.trace ∧ t.pos = s.pos ∧ t.published = []

/-- R51: the state after reset. -/
def Obligations.ResetValues : Prop :=
  (∀ k : Fin 24, State.reset.reg[k] = 0) ∧ (∀ c : Fin 5, State.reset.timer[c] = 0) ∧ State.reset.n = 0
  ∧ State.reset.cur = 0 ∧ State.reset.sink = .idle
  ∧ State.reset.buf =
      List.replicate State.reset.cfg.buffers (List.replicate (2 * State.reset.cfg.bufferSamples) 0)
  ∧ State.reset.scratch = List.replicate (2 * State.reset.cfg.bufferSamples) 0
  ∧ (∀ a, State.reset.rdh.lookup a = .default ∧ State.reset.wrh.lookup a = .default)
  ∧ State.reset.pcmOut = [] ∧ State.reset.queue = [] ∧ State.reset.fault = none

/-- No step changes a parameter (R52). -/
def Obligations.ParametersNeverChange : Prop :=
  ∀ s t : State, step s = .next t → t.cfg = s.cfg

/-- The invariant holds after reset, under any legal parameters and under the defaults (R51, R7; the values the model
chose are logs 1 to 7). -/
def Obligations.InvariantAtReset : Prop :=
  (∀ c : Config, c.wf = true → Inv (State.resetWith c)) ∧ Inv State.reset

/-- Every step keeps the invariant: canonical tables within the mask, buffers of the configured number and size, the
rotation of R244, the run states, the timer bounds of R39. -/
def Obligations.InvariantIsKept : Prop :=
  ∀ s t : State, Inv s → step s = .next t → Inv t
end

