-- ==== Sys2Proof/Laws/State.lean ====
section
/-! SUPPORT. One lemma per field per named update of State, so that no later proof unfolds a record update. -/

namespace Sys2Proof.Machine

/-! ### `raise` -/

@[simp] theorem raise_cfg (f : FaultRecord) (s : State) : (raise f s).cfg = s.cfg := rfl
@[simp] theorem raise_reg (f : FaultRecord) (s : State) : (raise f s).reg = s.reg := rfl
@[simp] theorem raise_timer (f : FaultRecord) (s : State) : (raise f s).timer = s.timer := rfl
@[simp] theorem raise_n (f : FaultRecord) (s : State) : (raise f s).n = s.n := rfl
@[simp] theorem raise_cur (f : FaultRecord) (s : State) : (raise f s).cur = s.cur := rfl
@[simp] theorem raise_sink (f : FaultRecord) (s : State) : (raise f s).sink = s.sink := rfl
@[simp] theorem raise_buf (f : FaultRecord) (s : State) : (raise f s).buf = s.buf := rfl
@[simp] theorem raise_scratch (f : FaultRecord) (s : State) : (raise f s).scratch = s.scratch := rfl
@[simp] theorem raise_rdh (f : FaultRecord) (s : State) : (raise f s).rdh = s.rdh := rfl
@[simp] theorem raise_wrh (f : FaultRecord) (s : State) : (raise f s).wrh = s.wrh := rfl
@[simp] theorem raise_pcmOut (f : FaultRecord) (s : State) : (raise f s).pcmOut = s.pcmOut := rfl
@[simp] theorem raise_queue (f : FaultRecord) (s : State) : (raise f s).queue = s.queue := rfl
@[simp] theorem raise_fault (f : FaultRecord) (s : State) : (raise f s).fault = some f := rfl
@[simp] theorem raise_replies (f : FaultRecord) (s : State) : (raise f s).replies = s.replies := rfl
@[simp] theorem raise_published (f : FaultRecord) (s : State) : (raise f s).published = s.published := rfl
@[simp] theorem raise_draws (f : FaultRecord) (s : State) : (raise f s).draws = s.draws := rfl
@[simp] theorem raise_trace (f : FaultRecord) (s : State) : (raise f s).trace = s.trace := rfl
@[simp] theorem raise_pos (f : FaultRecord) (s : State) : (raise f s).pos = s.pos := rfl

/-! ### `putReg` -/

@[simp] theorem putReg_cfg (k : Fin 24) (v : Byte) (s : State) : (putReg k v s).cfg = s.cfg := rfl
@[simp] theorem putReg_reg (k : Fin 24) (v : Byte) (s : State) : (putReg k v s).reg = s.reg.set k v := rfl
@[simp] theorem putReg_timer (k : Fin 24) (v : Byte) (s : State) : (putReg k v s).timer = s.timer := rfl
@[simp] theorem putReg_n (k : Fin 24) (v : Byte) (s : State) : (putReg k v s).n = s.n := rfl
@[simp] theorem putReg_cur (k : Fin 24) (v : Byte) (s : State) : (putReg k v s).cur = s.cur := rfl
@[simp] theorem putReg_sink (k : Fin 24) (v : Byte) (s : State) : (putReg k v s).sink = s.sink := rfl
@[simp] theorem putReg_buf (k : Fin 24) (v : Byte) (s : State) : (putReg k v s).buf = s.buf := rfl
@[simp] theorem putReg_scratch (k : Fin 24) (v : Byte) (s : State) : (putReg k v s).scratch = s.scratch := rfl
@[simp] theorem putReg_rdh (k : Fin 24) (v : Byte) (s : State) : (putReg k v s).rdh = s.rdh := rfl
@[simp] theorem putReg_wrh (k : Fin 24) (v : Byte) (s : State) : (putReg k v s).wrh = s.wrh := rfl
@[simp] theorem putReg_pcmOut (k : Fin 24) (v : Byte) (s : State) : (putReg k v s).pcmOut = s.pcmOut := rfl
@[simp] theorem putReg_queue (k : Fin 24) (v : Byte) (s : State) : (putReg k v s).queue = s.queue := rfl
@[simp] theorem putReg_fault (k : Fin 24) (v : Byte) (s : State) : (putReg k v s).fault = s.fault := rfl
@[simp] theorem putReg_replies (k : Fin 24) (v : Byte) (s : State) : (putReg k v s).replies = s.replies := rfl
@[simp] theorem putReg_published (k : Fin 24) (v : Byte) (s : State) : (putReg k v s).published = s.published := rfl
@[simp] theorem putReg_draws (k : Fin 24) (v : Byte) (s : State) : (putReg k v s).draws = s.draws := rfl
@[simp] theorem putReg_trace (k : Fin 24) (v : Byte) (s : State) : (putReg k v s).trace = s.trace := rfl
@[simp] theorem putReg_pos (k : Fin 24) (v : Byte) (s : State) : (putReg k v s).pos = s.pos := rfl

/-! ### `putTimer` -/

@[simp] theorem putTimer_cfg (c : Fin 5) (v : Nat) (s : State) : (putTimer c v s).cfg = s.cfg := rfl
@[simp] theorem putTimer_reg (c : Fin 5) (v : Nat) (s : State) : (putTimer c v s).reg = s.reg := rfl
@[simp] theorem putTimer_timer (c : Fin 5) (v : Nat) (s : State) : (putTimer c v s).timer = s.timer.set c v := rfl
@[simp] theorem putTimer_n (c : Fin 5) (v : Nat) (s : State) : (putTimer c v s).n = s.n := rfl
@[simp] theorem putTimer_cur (c : Fin 5) (v : Nat) (s : State) : (putTimer c v s).cur = s.cur := rfl
@[simp] theorem putTimer_sink (c : Fin 5) (v : Nat) (s : State) : (putTimer c v s).sink = s.sink := rfl
@[simp] theorem putTimer_buf (c : Fin 5) (v : Nat) (s : State) : (putTimer c v s).buf = s.buf := rfl
@[simp] theorem putTimer_scratch (c : Fin 5) (v : Nat) (s : State) : (putTimer c v s).scratch = s.scratch := rfl
@[simp] theorem putTimer_rdh (c : Fin 5) (v : Nat) (s : State) : (putTimer c v s).rdh = s.rdh := rfl
@[simp] theorem putTimer_wrh (c : Fin 5) (v : Nat) (s : State) : (putTimer c v s).wrh = s.wrh := rfl
@[simp] theorem putTimer_pcmOut (c : Fin 5) (v : Nat) (s : State) : (putTimer c v s).pcmOut = s.pcmOut := rfl
@[simp] theorem putTimer_queue (c : Fin 5) (v : Nat) (s : State) : (putTimer c v s).queue = s.queue := rfl
@[simp] theorem putTimer_fault (c : Fin 5) (v : Nat) (s : State) : (putTimer c v s).fault = s.fault := rfl
@[simp] theorem putTimer_replies (c : Fin 5) (v : Nat) (s : State) : (putTimer c v s).replies = s.replies := rfl
@[simp] theorem putTimer_published (c : Fin 5) (v : Nat) (s : State) : (putTimer c v s).published = s.published := rfl
@[simp] theorem putTimer_draws (c : Fin 5) (v : Nat) (s : State) : (putTimer c v s).draws = s.draws := rfl
@[simp] theorem putTimer_trace (c : Fin 5) (v : Nat) (s : State) : (putTimer c v s).trace = s.trace := rfl
@[simp] theorem putTimer_pos (c : Fin 5) (v : Nat) (s : State) : (putTimer c v s).pos = s.pos := rfl

/-! ### `reply` -/

@[simp] theorem reply_cfg (b : Byte) (s : State) : (reply b s).cfg = s.cfg := rfl
@[simp] theorem reply_reg (b : Byte) (s : State) : (reply b s).reg = s.reg := rfl
@[simp] theorem reply_timer (b : Byte) (s : State) : (reply b s).timer = s.timer := rfl
@[simp] theorem reply_n (b : Byte) (s : State) : (reply b s).n = s.n := rfl
@[simp] theorem reply_cur (b : Byte) (s : State) : (reply b s).cur = s.cur := rfl
@[simp] theorem reply_sink (b : Byte) (s : State) : (reply b s).sink = s.sink := rfl
@[simp] theorem reply_buf (b : Byte) (s : State) : (reply b s).buf = s.buf := rfl
@[simp] theorem reply_scratch (b : Byte) (s : State) : (reply b s).scratch = s.scratch := rfl
@[simp] theorem reply_rdh (b : Byte) (s : State) : (reply b s).rdh = s.rdh := rfl
@[simp] theorem reply_wrh (b : Byte) (s : State) : (reply b s).wrh = s.wrh := rfl
@[simp] theorem reply_pcmOut (b : Byte) (s : State) : (reply b s).pcmOut = s.pcmOut := rfl
@[simp] theorem reply_queue (b : Byte) (s : State) : (reply b s).queue = s.queue := rfl
@[simp] theorem reply_fault (b : Byte) (s : State) : (reply b s).fault = s.fault := rfl
@[simp] theorem reply_replies (b : Byte) (s : State) : (reply b s).replies = s.replies ++ [b] := rfl
@[simp] theorem reply_published (b : Byte) (s : State) : (reply b s).published = s.published := rfl
@[simp] theorem reply_draws (b : Byte) (s : State) : (reply b s).draws = s.draws := rfl
@[simp] theorem reply_trace (b : Byte) (s : State) : (reply b s).trace = s.trace := rfl
@[simp] theorem reply_pos (b : Byte) (s : State) : (reply b s).pos = s.pos := rfl

/-! ### `draw` -/

@[simp] theorem draw_cfg (s : State) : (draw s).cfg = s.cfg := rfl
@[simp] theorem draw_reg (s : State) : (draw s).reg = s.reg := rfl
@[simp] theorem draw_timer (s : State) : (draw s).timer = s.timer := rfl
@[simp] theorem draw_n (s : State) : (draw s).n = s.n := rfl
@[simp] theorem draw_cur (s : State) : (draw s).cur = s.cur := rfl
@[simp] theorem draw_sink (s : State) : (draw s).sink = s.sink := rfl
@[simp] theorem draw_buf (s : State) : (draw s).buf = s.buf := rfl
@[simp] theorem draw_scratch (s : State) : (draw s).scratch = s.scratch := rfl
@[simp] theorem draw_rdh (s : State) : (draw s).rdh = s.rdh := rfl
@[simp] theorem draw_wrh (s : State) : (draw s).wrh = s.wrh := rfl
@[simp] theorem draw_pcmOut (s : State) : (draw s).pcmOut = s.pcmOut := rfl
@[simp] theorem draw_queue (s : State) : (draw s).queue = s.queue := rfl
@[simp] theorem draw_fault (s : State) : (draw s).fault = s.fault := rfl
@[simp] theorem draw_replies (s : State) : (draw s).replies = s.replies := rfl
@[simp] theorem draw_published (s : State) : (draw s).published = s.published := rfl
@[simp] theorem draw_draws (s : State) : (draw s).draws = s.draws + 1 := rfl
@[simp] theorem draw_trace (s : State) : (draw s).trace = s.trace := rfl
@[simp] theorem draw_pos (s : State) : (draw s).pos = s.pos := rfl

/-! ### `putBuf` -/

@[simp] theorem putBuf_cfg (k : Nat) (b : List Byte) (s : State) : (putBuf k b s).cfg = s.cfg := rfl
@[simp] theorem putBuf_reg (k : Nat) (b : List Byte) (s : State) : (putBuf k b s).reg = s.reg := rfl
@[simp] theorem putBuf_timer (k : Nat) (b : List Byte) (s : State) : (putBuf k b s).timer = s.timer := rfl
@[simp] theorem putBuf_n (k : Nat) (b : List Byte) (s : State) : (putBuf k b s).n = s.n := rfl
@[simp] theorem putBuf_cur (k : Nat) (b : List Byte) (s : State) : (putBuf k b s).cur = s.cur := rfl
@[simp] theorem putBuf_sink (k : Nat) (b : List Byte) (s : State) : (putBuf k b s).sink = s.sink := rfl
@[simp] theorem putBuf_buf (k : Nat) (b : List Byte) (s : State) : (putBuf k b s).buf = s.buf.set k b := rfl
@[simp] theorem putBuf_scratch (k : Nat) (b : List Byte) (s : State) : (putBuf k b s).scratch = s.scratch := rfl
@[simp] theorem putBuf_rdh (k : Nat) (b : List Byte) (s : State) : (putBuf k b s).rdh = s.rdh := rfl
@[simp] theorem putBuf_wrh (k : Nat) (b : List Byte) (s : State) : (putBuf k b s).wrh = s.wrh := rfl
@[simp] theorem putBuf_pcmOut (k : Nat) (b : List Byte) (s : State) : (putBuf k b s).pcmOut = s.pcmOut := rfl
@[simp] theorem putBuf_queue (k : Nat) (b : List Byte) (s : State) : (putBuf k b s).queue = s.queue := rfl
@[simp] theorem putBuf_fault (k : Nat) (b : List Byte) (s : State) : (putBuf k b s).fault = s.fault := rfl
@[simp] theorem putBuf_replies (k : Nat) (b : List Byte) (s : State) : (putBuf k b s).replies = s.replies := rfl
@[simp] theorem putBuf_published (k : Nat) (b : List Byte) (s : State) : (putBuf k b s).published = s.published := rfl
@[simp] theorem putBuf_draws (k : Nat) (b : List Byte) (s : State) : (putBuf k b s).draws = s.draws := rfl
@[simp] theorem putBuf_trace (k : Nat) (b : List Byte) (s : State) : (putBuf k b s).trace = s.trace := rfl
@[simp] theorem putBuf_pos (k : Nat) (b : List Byte) (s : State) : (putBuf k b s).pos = s.pos := rfl

/-! ### `submit` -/

@[simp] theorem submit_cfg (k : Nat) (s : State) : (submit k s).cfg = s.cfg := rfl
@[simp] theorem submit_reg (k : Nat) (s : State) : (submit k s).reg = s.reg := rfl
@[simp] theorem submit_timer (k : Nat) (s : State) : (submit k s).timer = s.timer := rfl
@[simp] theorem submit_n (k : Nat) (s : State) : (submit k s).n = s.n := rfl
@[simp] theorem submit_cur (k : Nat) (s : State) : (submit k s).cur = s.cur := rfl
@[simp] theorem submit_sink (k : Nat) (s : State) : (submit k s).sink = s.sink := rfl
@[simp] theorem submit_buf (k : Nat) (s : State) : (submit k s).buf = s.buf := rfl
@[simp] theorem submit_scratch (k : Nat) (s : State) : (submit k s).scratch = s.scratch := rfl
@[simp] theorem submit_rdh (k : Nat) (s : State) : (submit k s).rdh = s.rdh := rfl
@[simp] theorem submit_wrh (k : Nat) (s : State) : (submit k s).wrh = s.wrh := rfl
@[simp] theorem submit_pcmOut (k : Nat) (s : State) : (submit k s).pcmOut = s.pcmOut ++ [s.buf.getD k []] := rfl
@[simp] theorem submit_queue (k : Nat) (s : State) : (submit k s).queue = s.queue ++ [k] := rfl
@[simp] theorem submit_fault (k : Nat) (s : State) : (submit k s).fault = s.fault := rfl
@[simp] theorem submit_replies (k : Nat) (s : State) : (submit k s).replies = s.replies := rfl
@[simp] theorem submit_published (k : Nat) (s : State) : (submit k s).published = s.published := rfl
@[simp] theorem submit_draws (k : Nat) (s : State) : (submit k s).draws = s.draws := rfl
@[simp] theorem submit_trace (k : Nat) (s : State) : (submit k s).trace = s.trace := rfl
@[simp] theorem submit_pos (k : Nat) (s : State) : (submit k s).pos = s.pos := rfl

/-! ### `publish` -/

@[simp] theorem publish_cfg (s : State) : (publish s).cfg = s.cfg := by unfold publish; split <;> rfl
@[simp] theorem publish_reg (s : State) : (publish s).reg = s.reg := by unfold publish; split <;> rfl
@[simp] theorem publish_timer (s : State) : (publish s).timer = s.timer := by unfold publish; split <;> rfl
@[simp] theorem publish_n (s : State) : (publish s).n = s.n := by unfold publish; split <;> rfl
@[simp] theorem publish_cur (s : State) : (publish s).cur = s.cur := by unfold publish; split <;> rfl
@[simp] theorem publish_sink (s : State) : (publish s).sink = s.sink := by unfold publish; split <;> rfl
@[simp] theorem publish_buf (s : State) : (publish s).buf = s.buf := by unfold publish; split <;> rfl
@[simp] theorem publish_scratch (s : State) : (publish s).scratch = s.scratch := by unfold publish; split <;> rfl
@[simp] theorem publish_rdh (s : State) : (publish s).rdh = s.rdh := by unfold publish; split <;> rfl
@[simp] theorem publish_wrh (s : State) : (publish s).wrh = s.wrh := by unfold publish; split <;> rfl
@[simp] theorem publish_pcmOut (s : State) : (publish s).pcmOut = s.pcmOut := by unfold publish; split <;> rfl
@[simp] theorem publish_queue (s : State) : (publish s).queue = s.queue := by unfold publish; split <;> rfl
@[simp] theorem publish_fault (s : State) : (publish s).fault = s.fault := by unfold publish; split <;> rfl
@[simp] theorem publish_replies (s : State) : (publish s).replies = s.replies := by unfold publish; split <;> rfl
@[simp] theorem publish_draws (s : State) : (publish s).draws = s.draws := by unfold publish; split <;> rfl
@[simp] theorem publish_trace (s : State) : (publish s).trace = s.trace := by unfold publish; split <;> rfl
@[simp] theorem publish_pos (s : State) : (publish s).pos = s.pos := by unfold publish; split <;> rfl

/-! ### `reload` -/

@[simp] theorem reload_cfg (k : Fin 24) (v : Byte) (s : State) : (reload k v s).cfg = s.cfg := by unfold reload; split <;> rfl
@[simp] theorem reload_reg (k : Fin 24) (v : Byte) (s : State) : (reload k v s).reg = s.reg := by unfold reload; split <;> rfl
@[simp] theorem reload_n (k : Fin 24) (v : Byte) (s : State) : (reload k v s).n = s.n := by unfold reload; split <;> rfl
@[simp] theorem reload_cur (k : Fin 24) (v : Byte) (s : State) : (reload k v s).cur = s.cur := by unfold reload; split <;> rfl
@[simp] theorem reload_sink (k : Fin 24) (v : Byte) (s : State) : (reload k v s).sink = s.sink := by unfold reload; split <;> rfl
@[simp] theorem reload_buf (k : Fin 24) (v : Byte) (s : State) : (reload k v s).buf = s.buf := by unfold reload; split <;> rfl
@[simp] theorem reload_scratch (k : Fin 24) (v : Byte) (s : State) : (reload k v s).scratch = s.scratch := by unfold reload; split <;> rfl
@[simp] theorem reload_rdh (k : Fin 24) (v : Byte) (s : State) : (reload k v s).rdh = s.rdh := by unfold reload; split <;> rfl
@[simp] theorem reload_wrh (k : Fin 24) (v : Byte) (s : State) : (reload k v s).wrh = s.wrh := by unfold reload; split <;> rfl
@[simp] theorem reload_pcmOut (k : Fin 24) (v : Byte) (s : State) : (reload k v s).pcmOut = s.pcmOut := by unfold reload; split <;> rfl
@[simp] theorem reload_queue (k : Fin 24) (v : Byte) (s : State) : (reload k v s).queue = s.queue := by unfold reload; split <;> rfl
@[simp] theorem reload_fault (k : Fin 24) (v : Byte) (s : State) : (reload k v s).fault = s.fault := by unfold reload; split <;> rfl
@[simp] theorem reload_replies (k : Fin 24) (v : Byte) (s : State) : (reload k v s).replies = s.replies := by unfold reload; split <;> rfl
@[simp] theorem reload_published (k : Fin 24) (v : Byte) (s : State) : (reload k v s).published = s.published := by unfold reload; split <;> rfl
@[simp] theorem reload_draws (k : Fin 24) (v : Byte) (s : State) : (reload k v s).draws = s.draws := by unfold reload; split <;> rfl
@[simp] theorem reload_trace (k : Fin 24) (v : Byte) (s : State) : (reload k v s).trace = s.trace := by unfold reload; split <;> rfl
@[simp] theorem reload_pos (k : Fin 24) (v : Byte) (s : State) : (reload k v s).pos = s.pos := by unfold reload; split <;> rfl

/-! ### `forget` -/

@[simp] theorem forget_cfg (s : State) : (forget s).cfg = s.cfg := rfl
@[simp] theorem forget_reg (s : State) : (forget s).reg = s.reg := rfl
@[simp] theorem forget_timer (s : State) : (forget s).timer = s.timer := rfl
@[simp] theorem forget_n (s : State) : (forget s).n = s.n := rfl
@[simp] theorem forget_cur (s : State) : (forget s).cur = s.cur := rfl
@[simp] theorem forget_sink (s : State) : (forget s).sink = s.sink := rfl
@[simp] theorem forget_buf (s : State) : (forget s).buf = s.buf := rfl
@[simp] theorem forget_scratch (s : State) : (forget s).scratch = s.scratch := rfl
@[simp] theorem forget_rdh (s : State) : (forget s).rdh = s.rdh := rfl
@[simp] theorem forget_wrh (s : State) : (forget s).wrh = s.wrh := rfl
@[simp] theorem forget_pcmOut (s : State) : (forget s).pcmOut = s.pcmOut := rfl
@[simp] theorem forget_queue (s : State) : (forget s).queue = s.queue := rfl
@[simp] theorem forget_fault (s : State) : (forget s).fault = s.fault := rfl
@[simp] theorem forget_replies (s : State) : (forget s).replies = s.replies := rfl
@[simp] theorem forget_published (s : State) : (forget s).published = [] := rfl
@[simp] theorem forget_draws (s : State) : (forget s).draws = s.draws := rfl
@[simp] theorem forget_trace (s : State) : (forget s).trace = s.trace := rfl
@[simp] theorem forget_pos (s : State) : (forget s).pos = s.pos := rfl

/-! ### `dequeue` -/

@[simp] theorem dequeue_cfg (s : State) : (dequeue s).cfg = s.cfg := rfl
@[simp] theorem dequeue_reg (s : State) : (dequeue s).reg = s.reg := rfl
@[simp] theorem dequeue_timer (s : State) : (dequeue s).timer = s.timer := rfl
@[simp] theorem dequeue_n (s : State) : (dequeue s).n = s.n := rfl
@[simp] theorem dequeue_cur (s : State) : (dequeue s).cur = s.cur := rfl
@[simp] theorem dequeue_sink (s : State) : (dequeue s).sink = s.sink := rfl
@[simp] theorem dequeue_buf (s : State) : (dequeue s).buf = s.buf := rfl
@[simp] theorem dequeue_scratch (s : State) : (dequeue s).scratch = s.scratch := rfl
@[simp] theorem dequeue_rdh (s : State) : (dequeue s).rdh = s.rdh := rfl
@[simp] theorem dequeue_wrh (s : State) : (dequeue s).wrh = s.wrh := rfl
@[simp] theorem dequeue_pcmOut (s : State) : (dequeue s).pcmOut = s.pcmOut := rfl
@[simp] theorem dequeue_queue (s : State) : (dequeue s).queue = s.queue.tail := rfl
@[simp] theorem dequeue_fault (s : State) : (dequeue s).fault = s.fault := rfl
@[simp] theorem dequeue_replies (s : State) : (dequeue s).replies = s.replies := rfl
@[simp] theorem dequeue_published (s : State) : (dequeue s).published = s.published := rfl
@[simp] theorem dequeue_draws (s : State) : (dequeue s).draws = s.draws := rfl
@[simp] theorem dequeue_trace (s : State) : (dequeue s).trace = s.trace := rfl
@[simp] theorem dequeue_pos (s : State) : (dequeue s).pos = s.pos := rfl

/-! ### `pass` -/

@[simp] theorem pass_cfg (s : State) : (pass s).cfg = s.cfg := rfl
@[simp] theorem pass_reg (s : State) : (pass s).reg = s.reg := rfl
@[simp] theorem pass_timer (s : State) : (pass s).timer = s.timer := rfl
@[simp] theorem pass_n (s : State) : (pass s).n = s.n + s.cfg.bufferSamples := rfl
@[simp] theorem pass_cur (s : State) : (pass s).cur = s.cur := rfl
@[simp] theorem pass_sink (s : State) : (pass s).sink = s.sink := rfl
@[simp] theorem pass_buf (s : State) : (pass s).buf = s.buf := rfl
@[simp] theorem pass_scratch (s : State) : (pass s).scratch = passBytes s.cfg (passSnapshot s) s.cfg.bufferSamples s.n := rfl
@[simp] theorem pass_rdh (s : State) : (pass s).rdh = s.rdh := rfl
@[simp] theorem pass_wrh (s : State) : (pass s).wrh = s.wrh := rfl
@[simp] theorem pass_pcmOut (s : State) : (pass s).pcmOut = s.pcmOut := rfl
@[simp] theorem pass_queue (s : State) : (pass s).queue = s.queue := rfl
@[simp] theorem pass_fault (s : State) : (pass s).fault = s.fault := rfl
@[simp] theorem pass_replies (s : State) : (pass s).replies = s.replies := rfl
@[simp] theorem pass_published (s : State) : (pass s).published = [] := rfl
@[simp] theorem pass_draws (s : State) : (pass s).draws = passDraws s := rfl
@[simp] theorem pass_trace (s : State) : (pass s).trace = s.trace := rfl
@[simp] theorem pass_pos (s : State) : (pass s).pos = s.pos := rfl

/-! ### `rotate` -/

@[simp] theorem rotate_cfg (s : State) : (rotate s).cfg = s.cfg := rfl
@[simp] theorem rotate_reg (s : State) : (rotate s).reg = s.reg := rfl
@[simp] theorem rotate_timer (s : State) : (rotate s).timer = s.timer := rfl
@[simp] theorem rotate_n (s : State) : (rotate s).n = s.n := rfl
@[simp] theorem rotate_cur (s : State) : (rotate s).cur = (s.cur + 1) % s.cfg.buffers := rfl
@[simp] theorem rotate_sink (s : State) : (rotate s).sink = s.sink := rfl
@[simp] theorem rotate_buf (s : State) : (rotate s).buf = s.buf.set s.cur s.scratch := rfl
@[simp] theorem rotate_scratch (s : State) : (rotate s).scratch = s.scratch := rfl
@[simp] theorem rotate_rdh (s : State) : (rotate s).rdh = s.rdh := rfl
@[simp] theorem rotate_wrh (s : State) : (rotate s).wrh = s.wrh := rfl
@[simp] theorem rotate_pcmOut (s : State) : (rotate s).pcmOut = s.pcmOut ++ [(s.buf.set s.cur s.scratch).getD s.cur []] := rfl
@[simp] theorem rotate_queue (s : State) : (rotate s).queue = s.queue ++ [s.cur] := rfl
@[simp] theorem rotate_fault (s : State) : (rotate s).fault = s.fault := rfl
@[simp] theorem rotate_replies (s : State) : (rotate s).replies = s.replies := rfl
@[simp] theorem rotate_published (s : State) : (rotate s).published = s.published := rfl
@[simp] theorem rotate_draws (s : State) : (rotate s).draws = s.draws := rfl
@[simp] theorem rotate_trace (s : State) : (rotate s).trace = s.trace := rfl
@[simp] theorem rotate_pos (s : State) : (rotate s).pos = s.pos := rfl

/-! ### `takeWord` -/

@[simp] theorem takeWord_cfg (rest : List TransWord) (s : State) : (takeWord rest s).cfg = s.cfg := rfl
@[simp] theorem takeWord_reg (rest : List TransWord) (s : State) : (takeWord rest s).reg = s.reg := rfl
@[simp] theorem takeWord_timer (rest : List TransWord) (s : State) : (takeWord rest s).timer = s.timer := rfl
@[simp] theorem takeWord_n (rest : List TransWord) (s : State) : (takeWord rest s).n = s.n := rfl
@[simp] theorem takeWord_cur (rest : List TransWord) (s : State) : (takeWord rest s).cur = s.cur := rfl
@[simp] theorem takeWord_sink (rest : List TransWord) (s : State) : (takeWord rest s).sink = s.sink := rfl
@[simp] theorem takeWord_buf (rest : List TransWord) (s : State) : (takeWord rest s).buf = s.buf := rfl
@[simp] theorem takeWord_scratch (rest : List TransWord) (s : State) : (takeWord rest s).scratch = s.scratch := rfl
@[simp] theorem takeWord_rdh (rest : List TransWord) (s : State) : (takeWord rest s).rdh = s.rdh := rfl
@[simp] theorem takeWord_wrh (rest : List TransWord) (s : State) : (takeWord rest s).wrh = s.wrh := rfl
@[simp] theorem takeWord_pcmOut (rest : List TransWord) (s : State) : (takeWord rest s).pcmOut = s.pcmOut := rfl
@[simp] theorem takeWord_queue (rest : List TransWord) (s : State) : (takeWord rest s).queue = s.queue := rfl
@[simp] theorem takeWord_fault (rest : List TransWord) (s : State) : (takeWord rest s).fault = s.fault := rfl
@[simp] theorem takeWord_replies (rest : List TransWord) (s : State) : (takeWord rest s).replies = s.replies := rfl
@[simp] theorem takeWord_published (rest : List TransWord) (s : State) : (takeWord rest s).published = s.published := rfl
@[simp] theorem takeWord_draws (rest : List TransWord) (s : State) : (takeWord rest s).draws = s.draws := rfl
@[simp] theorem takeWord_trace (rest : List TransWord) (s : State) : (takeWord rest s).trace = rest := rfl
@[simp] theorem takeWord_pos (rest : List TransWord) (s : State) : (takeWord rest s).pos = s.pos + 1 := rfl

/-! ### `presentWord` -/

@[simp] theorem presentWord_cfg (w : TransWord) (s : State) : (presentWord w s).cfg = s.cfg := rfl
@[simp] theorem presentWord_reg (w : TransWord) (s : State) : (presentWord w s).reg = s.reg := rfl
@[simp] theorem presentWord_timer (w : TransWord) (s : State) : (presentWord w s).timer = s.timer := rfl
@[simp] theorem presentWord_n (w : TransWord) (s : State) : (presentWord w s).n = s.n := rfl
@[simp] theorem presentWord_cur (w : TransWord) (s : State) : (presentWord w s).cur = s.cur := rfl
@[simp] theorem presentWord_sink (w : TransWord) (s : State) : (presentWord w s).sink = s.sink := rfl
@[simp] theorem presentWord_buf (w : TransWord) (s : State) : (presentWord w s).buf = s.buf := rfl
@[simp] theorem presentWord_scratch (w : TransWord) (s : State) : (presentWord w s).scratch = s.scratch := rfl
@[simp] theorem presentWord_rdh (w : TransWord) (s : State) : (presentWord w s).rdh = s.rdh := rfl
@[simp] theorem presentWord_wrh (w : TransWord) (s : State) : (presentWord w s).wrh = s.wrh := rfl
@[simp] theorem presentWord_pcmOut (w : TransWord) (s : State) : (presentWord w s).pcmOut = s.pcmOut := rfl
@[simp] theorem presentWord_queue (w : TransWord) (s : State) : (presentWord w s).queue = s.queue := rfl
@[simp] theorem presentWord_fault (w : TransWord) (s : State) : (presentWord w s).fault = s.fault := rfl
@[simp] theorem presentWord_replies (w : TransWord) (s : State) : (presentWord w s).replies = s.replies := rfl
@[simp] theorem presentWord_published (w : TransWord) (s : State) : (presentWord w s).published = s.published := rfl
@[simp] theorem presentWord_draws (w : TransWord) (s : State) : (presentWord w s).draws = s.draws := rfl
@[simp] theorem presentWord_trace (w : TransWord) (s : State) : (presentWord w s).trace = w :: s.trace := rfl
@[simp] theorem presentWord_pos (w : TransWord) (s : State) : (presentWord w s).pos = s.pos := rfl

/-! ### `publish` keeps nothing under `AtRefill` (R81, D16) -/

theorem publish_atRefill {s : State} (h : s.cfg.snapshotMode = .atRefill) : publish s = s := by
  unfold publish; rw [h]

theorem publish_latestPublished {s : State} (h : s.cfg.snapshotMode = .latestPublished) :
    publish s = { s with published := s.published ++ [s.snapshot] } := by
  unfold publish; rw [h]

/-! ### `writeRegister` (R140) -/

theorem writeRegister_eq (k : Fin 24) (v : Byte) (s : State) :
    writeRegister k v s = { publish s with reg := s.reg.set k v, timer := (writeRegister k v s).timer } := by
  unfold writeRegister reload putTimer putReg publish
  split <;> split <;> rfl

@[simp] theorem writeRegister_reg (k : Fin 24) (v : Byte) (s : State) :
    (writeRegister k v s).reg = s.reg.set k v := by
  rw [writeRegister_eq]

@[simp] theorem writeRegister_cfg (k : Fin 24) (v : Byte) (s : State) : (writeRegister k v s).cfg = s.cfg := by
  simp [writeRegister]
@[simp] theorem writeRegister_n (k : Fin 24) (v : Byte) (s : State) : (writeRegister k v s).n = s.n := by
  simp [writeRegister]
@[simp] theorem writeRegister_cur (k : Fin 24) (v : Byte) (s : State) : (writeRegister k v s).cur = s.cur := by
  simp [writeRegister]
@[simp] theorem writeRegister_sink (k : Fin 24) (v : Byte) (s : State) : (writeRegister k v s).sink = s.sink := by
  simp [writeRegister]
@[simp] theorem writeRegister_buf (k : Fin 24) (v : Byte) (s : State) : (writeRegister k v s).buf = s.buf := by
  simp [writeRegister]
@[simp] theorem writeRegister_scratch (k : Fin 24) (v : Byte) (s : State) : (writeRegister k v s).scratch = s.scratch := by
  simp [writeRegister]
@[simp] theorem writeRegister_rdh (k : Fin 24) (v : Byte) (s : State) : (writeRegister k v s).rdh = s.rdh := by
  simp [writeRegister]
@[simp] theorem writeRegister_wrh (k : Fin 24) (v : Byte) (s : State) : (writeRegister k v s).wrh = s.wrh := by
  simp [writeRegister]
@[simp] theorem writeRegister_pcmOut (k : Fin 24) (v : Byte) (s : State) : (writeRegister k v s).pcmOut = s.pcmOut := by
  simp [writeRegister]
@[simp] theorem writeRegister_queue (k : Fin 24) (v : Byte) (s : State) : (writeRegister k v s).queue = s.queue := by
  simp [writeRegister]
@[simp] theorem writeRegister_fault (k : Fin 24) (v : Byte) (s : State) : (writeRegister k v s).fault = s.fault := by
  simp [writeRegister]
@[simp] theorem writeRegister_replies (k : Fin 24) (v : Byte) (s : State) : (writeRegister k v s).replies = s.replies := by
  simp [writeRegister]
@[simp] theorem writeRegister_draws (k : Fin 24) (v : Byte) (s : State) : (writeRegister k v s).draws = s.draws := by
  simp [writeRegister]
@[simp] theorem writeRegister_trace (k : Fin 24) (v : Byte) (s : State) : (writeRegister k v s).trace = s.trace := by
  simp [writeRegister]
@[simp] theorem writeRegister_pos (k : Fin 24) (v : Byte) (s : State) : (writeRegister k v s).pos = s.pos := by
  simp [writeRegister]
@[simp] theorem writeRegister_published (k : Fin 24) (v : Byte) (s : State) :
    (writeRegister k v s).published = (publish s).published := by
  simp [writeRegister]

/-! ### START and CONSUMED: the fields they leave -/

theorem prefillFrom_cfg (count k : Nat) (s : State) : (prefillFrom count k s).cfg = s.cfg := by
  induction count generalizing k s with
  | zero => rfl
  | succ m ih => rw [prefillFrom, ih]; rfl

theorem prefillFrom_reg (count k : Nat) (s : State) : (prefillFrom count k s).reg = s.reg := by
  induction count generalizing k s with
  | zero => rfl
  | succ m ih => rw [prefillFrom, ih]; rfl

theorem prefillFrom_timer (count k : Nat) (s : State) : (prefillFrom count k s).timer = s.timer := by
  induction count generalizing k s with
  | zero => rfl
  | succ m ih => rw [prefillFrom, ih]; rfl

theorem prefillFrom_n (count k : Nat) (s : State) : (prefillFrom count k s).n = s.n := by
  induction count generalizing k s with
  | zero => rfl
  | succ m ih => rw [prefillFrom, ih]; rfl

theorem prefillFrom_scratch (count k : Nat) (s : State) : (prefillFrom count k s).scratch = s.scratch := by
  induction count generalizing k s with
  | zero => rfl
  | succ m ih => rw [prefillFrom, ih]; rfl

theorem prefillFrom_rdh (count k : Nat) (s : State) : (prefillFrom count k s).rdh = s.rdh := by
  induction count generalizing k s with
  | zero => rfl
  | succ m ih => rw [prefillFrom, ih]; rfl

theorem prefillFrom_wrh (count k : Nat) (s : State) : (prefillFrom count k s).wrh = s.wrh := by
  induction count generalizing k s with
  | zero => rfl
  | succ m ih => rw [prefillFrom, ih]; rfl

theorem prefillFrom_fault (count k : Nat) (s : State) : (prefillFrom count k s).fault = s.fault := by
  induction count generalizing k s with
  | zero => rfl
  | succ m ih => rw [prefillFrom, ih]; rfl

theorem prefillFrom_replies (count k : Nat) (s : State) : (prefillFrom count k s).replies = s.replies := by
  induction count generalizing k s with
  | zero => rfl
  | succ m ih => rw [prefillFrom, ih]; rfl

theorem prefillFrom_published (count k : Nat) (s : State) : (prefillFrom count k s).published = s.published := by
  induction count generalizing k s with
  | zero => rfl
  | succ m ih => rw [prefillFrom, ih]; rfl

theorem prefillFrom_draws (count k : Nat) (s : State) : (prefillFrom count k s).draws = s.draws := by
  induction count generalizing k s with
  | zero => rfl
  | succ m ih => rw [prefillFrom, ih]; rfl

theorem prefillFrom_trace (count k : Nat) (s : State) : (prefillFrom count k s).trace = s.trace := by
  induction count generalizing k s with
  | zero => rfl
  | succ m ih => rw [prefillFrom, ih]; rfl

theorem prefillFrom_pos (count k : Nat) (s : State) : (prefillFrom count k s).pos = s.pos := by
  induction count generalizing k s with
  | zero => rfl
  | succ m ih => rw [prefillFrom, ih]; rfl

@[simp] theorem begin_cfg (s : State) : (begin s).cfg = s.cfg := prefillFrom_cfg _ _ s
@[simp] theorem begin_reg (s : State) : (begin s).reg = s.reg := prefillFrom_reg _ _ s
@[simp] theorem begin_timer (s : State) : (begin s).timer = s.timer := prefillFrom_timer _ _ s
@[simp] theorem begin_n (s : State) : (begin s).n = s.n := prefillFrom_n _ _ s
@[simp] theorem begin_scratch (s : State) : (begin s).scratch = s.scratch := prefillFrom_scratch _ _ s
@[simp] theorem begin_rdh (s : State) : (begin s).rdh = s.rdh := prefillFrom_rdh _ _ s
@[simp] theorem begin_wrh (s : State) : (begin s).wrh = s.wrh := prefillFrom_wrh _ _ s
@[simp] theorem begin_fault (s : State) : (begin s).fault = s.fault := prefillFrom_fault _ _ s
@[simp] theorem begin_replies (s : State) : (begin s).replies = s.replies := prefillFrom_replies _ _ s
@[simp] theorem begin_published (s : State) : (begin s).published = s.published := prefillFrom_published _ _ s
@[simp] theorem begin_draws (s : State) : (begin s).draws = s.draws := prefillFrom_draws _ _ s
@[simp] theorem begin_trace (s : State) : (begin s).trace = s.trace := prefillFrom_trace _ _ s
@[simp] theorem begin_pos (s : State) : (begin s).pos = s.pos := prefillFrom_pos _ _ s
@[simp] theorem begin_cur (s : State) : (begin s).cur = 0 := rfl
@[simp] theorem begin_sink (s : State) : (begin s).sink = .running := rfl

@[simp] theorem refill_cfg (s : State) : (refill s).cfg = s.cfg := rfl
@[simp] theorem refill_reg (s : State) : (refill s).reg = s.reg := rfl
@[simp] theorem refill_timer (s : State) : (refill s).timer = s.timer := rfl
@[simp] theorem refill_sink (s : State) : (refill s).sink = s.sink := rfl
@[simp] theorem refill_rdh (s : State) : (refill s).rdh = s.rdh := rfl
@[simp] theorem refill_wrh (s : State) : (refill s).wrh = s.wrh := rfl
@[simp] theorem refill_fault (s : State) : (refill s).fault = s.fault := rfl
@[simp] theorem refill_replies (s : State) : (refill s).replies = s.replies := rfl
@[simp] theorem refill_trace (s : State) : (refill s).trace = s.trace := rfl
@[simp] theorem refill_pos (s : State) : (refill s).pos = s.pos := rfl
@[simp] theorem refill_n (s : State) : (refill s).n = s.n + s.cfg.bufferSamples := rfl
@[simp] theorem refill_cur (s : State) : (refill s).cur = (s.cur + 1) % s.cfg.buffers := rfl
@[simp] theorem refill_queue (s : State) : (refill s).queue = s.queue.tail ++ [s.cur] := rfl
@[simp] theorem refill_published (s : State) : (refill s).published = [] := rfl

/-! ### RESET -/

@[simp] theorem resetBlock_cfg (s : State) : (resetBlock s).cfg = s.cfg := rfl
@[simp] theorem resetBlock_reg (s : State) : (resetBlock s).reg = Vector.replicate 24 0 := rfl
@[simp] theorem resetBlock_timer (s : State) : (resetBlock s).timer = Vector.replicate 5 0 := rfl
@[simp] theorem resetBlock_n (s : State) : (resetBlock s).n = 0 := rfl
@[simp] theorem resetBlock_cur (s : State) : (resetBlock s).cur = 0 := rfl
@[simp] theorem resetBlock_sink (s : State) : (resetBlock s).sink = .idle := rfl
@[simp] theorem resetBlock_buf (s : State) : (resetBlock s).buf = List.replicate s.cfg.buffers (silence s.cfg) := rfl
@[simp] theorem resetBlock_scratch (s : State) : (resetBlock s).scratch = silence s.cfg := rfl
@[simp] theorem resetBlock_rdh (s : State) : (resetBlock s).rdh = ⟨[]⟩ := rfl
@[simp] theorem resetBlock_wrh (s : State) : (resetBlock s).wrh = ⟨[]⟩ := rfl
@[simp] theorem resetBlock_pcmOut (s : State) : (resetBlock s).pcmOut = [] := rfl
@[simp] theorem resetBlock_queue (s : State) : (resetBlock s).queue = [] := rfl
@[simp] theorem resetBlock_fault (s : State) : (resetBlock s).fault = none := rfl
@[simp] theorem resetBlock_replies (s : State) : (resetBlock s).replies = s.replies := rfl
@[simp] theorem resetBlock_published (s : State) : (resetBlock s).published = [] := rfl
@[simp] theorem resetBlock_draws (s : State) : (resetBlock s).draws = s.draws := rfl
@[simp] theorem resetBlock_trace (s : State) : (resetBlock s).trace = s.trace := rfl
@[simp] theorem resetBlock_pos (s : State) : (resetBlock s).pos = s.pos := rfl

/-! ### `publish` by the snapshots kept (R81) -/

theorem publish_eq (s : State) : publish s = { s with published := keptAfter s } := by
  unfold publish keptAfter
  split <;> simp_all [State.snapshot]

/-- What a register write changes: `reg`, `timer` and the kept snapshots (R140). -/
theorem writeRegister_frame (k : Fin 24) (v : Byte) (s : State) :
    writeRegister k v s =
      { s with reg := s.reg.set k v, timer := (writeRegister k v s).timer, published := keptAfter s } := by
  unfold writeRegister reload putReg putTimer
  rw [publish_eq]
  split <;> rfl

end Sys2Proof.Machine
end

