-- ==== Sys2Proof/Laws/Operands.lean ====
section
/-! SUPPORT. Laws of operands and flags (30_encoding.md R97, 10_state.md R49): slots, register indices, reload codes,
periods, halt bits. -/

namespace Sys2Proof.Machine

/-- The AND with `2^w - 1` is the modulo (R70). -/
theorem slot_eq (s : State) (addr : BusAddr) : slot s.cfg addr = slotOf s addr := by
  simp [slot, slotOf, Config.busMask, Nat.and_two_pow_sub_one_eq_mod]

theorem regIndex_reg (k : Fin 24) : regIndex (0x4000 + k.val) = some k := by
  have := k.isLt
  unfold regIndex apuBase regCount
  rw [dif_pos (by omega)]
  simp only [Option.some.injEq, Fin.ext_iff]
  omega

theorem regIndex_none {a : Nat} (h : ¬(0x4000 ≤ a ∧ a < 0x4018)) : regIndex a = none := by
  unfold regIndex apuBase regCount
  rw [dif_neg (by omega)]

theorem regIndex_some {a : Nat} {k : Fin 24} (h : regIndex a = some k) : a = 0x4000 + k.val := by
  unfold regIndex apuBase regCount at h
  split at h
  · next h' =>
    have hk := congrArg Fin.val (Option.some.inj h)
    dsimp only at hk
    omega
  · cases h

theorem regIndex_eq_none {a : Nat} (h : regIndex a = none) : ¬(0x4000 ≤ a ∧ a < 0x4018) := by
  unfold regIndex apuBase regCount at h
  split at h
  · cases h
  · omega

/-! ### The register file's addresses in numbers (R6, R68, R69) -/

theorem writeReaches_iff {s : State} {addr : BusAddr} {k : Fin 24} :
    WriteReaches s addr k ↔
      s.fault = none ∧ slotOf s addr = 0x4000 + k.val ∧ s.wrh.lookup (slotOf s addr) = .apu := Iff.rfl

theorem readReaches_iff {s : State} {addr : BusAddr} {k : Fin 24} :
    ReadReaches s addr k ↔
      s.fault = none ∧ slotOf s addr = 0x4000 + k.val ∧ s.rdh.lookup (slotOf s addr) = .apu := Iff.rfl

theorem standardTables_iff {s : State} :
    StandardTables s ↔ ∀ a, s.rdh.lookup a = (if 0x4000 ≤ a ∧ a ≤ 0x4017 then .apu else .default)
      ∧ s.wrh.lookup a = (if 0x4000 ≤ a ∧ a ≤ 0x4017 then .apu else .default) := Iff.rfl

/-- The address of a register row: bits 19:16 above `$4000 + k` (R68, R99). -/
theorem rowAddr_toNat (hi : Nibble) (k : Fin 24) : (rowAddr hi k.val).toNat = hi.toNat * 65536 + (0x4000 + k.val) := by
  have hk := k.isLt
  have hh := hi.isLt
  unfold rowAddr apuBase
  rw [BitVec.toNat_append, BitVec.toNat_ofNat, Nat.shiftLeft_eq, Nat.mod_eq_of_lt (by omega),
    ← Nat.shiftLeft_eq, ← Nat.shiftLeft_add_eq_or_of_lt (by omega), Nat.shiftLeft_eq]

@[simp] theorem operation_wrRow (k : Fin 24) (hi : Nibble) (v : Byte) :
    (wrRow k hi v).operation = .busw (rowAddr hi k.val) v := by
  fin_cases k <;> rfl

@[simp] theorem operation_rdRow (k : Fin 24) (hi : Nibble) : (rdRow k hi).operation = .busr (rowAddr hi k.val) := by
  fin_cases k <;> rfl

/-- The slot of a register row when the mask discards bits 19:16 (R99). -/
theorem slotOf_rowAddr {s : State} (h1 : 15 ≤ s.cfg.busWidth) (h2 : s.cfg.busWidth ≤ 16) (hi : Nibble) (k : Fin 24) :
    slotOf s (rowAddr hi k.val) = 0x4000 + k.val := by
  have hk := k.isLt
  unfold slotOf
  rw [rowAddr_toNat]
  obtain h | h : s.cfg.busWidth = 15 ∨ s.cfg.busWidth = 16 := by omega
  · rw [h]; omega
  · rw [h]; omega

theorem reloadCode_val (v : Byte) : (reloadCode v).val = v.toNat / 8 := by
  show (v >>> 3).toNat = v.toNat / 8
  rw [BitVec.toNat_ushiftRight, Nat.shiftRight_eq_div_pow]

theorem timerLoad_eq (c : Config) (v : Byte) :
    timerLoad c v = c.table.toList.getD (v.toNat / 8) 0 * c.scale := by
  have h : v.toNat / 8 < 32 := by have := v.isLt; omega
  unfold timerLoad
  rw [List.getD_eq_getElem _ _ (by simpa using h)]
  simp [reloadCode_val]

theorem and_low (v m : Byte) (j : Nat) (hm : m.toNat = 2 ^ j - 1) : (v &&& m).toNat = v.toNat % 2 ^ j := by
  rw [BitVec.toNat_and, hm, Nat.and_two_pow_sub_one_eq_mod]

theorem linearLoad_eq (c : Config) (v : Byte) : linearLoad c v = v.toNat % 128 * c.scale := by
  unfold linearLoad
  rw [and_low v 0x7F 7 rfl]
  rfl

/-- The decoded period as arithmetic: low byte plus 256 times the high three bits (R61). -/
theorem period_eq (lo hi : Byte) : period lo hi = lo.toNat + 256 * (hi.toNat % 8) := by
  have := lo.isLt
  unfold period
  rw [and_low hi _ 3 (by rfl), Nat.lor_comm, ← Nat.shiftLeft_add_eq_or_of_lt (by omega), Nat.shiftLeft_eq]
  omega

theorem period_lt (lo hi : Byte) : period lo hi < 2048 := by
  have := lo.isLt
  rw [period_eq]
  omega

theorem and_bit5 (v : Byte) : (v &&& 0x20 != 0) = v.getLsbD 5 := by revert v; decide

theorem and_bit7 (v : Byte) : (v &&& 0x80 != 0) = v.getLsbD 7 := by revert v; decide

/-- The halt mask of each slot is the halt bit the register rules name (R24, R27, R30, R33, R49). -/
theorem halt_eq (reg : Vector Byte 24) (c : Fin 5) : halt reg c = haltBit reg c := by
  match c with
  | 0 => exact and_bit5 _
  | 1 => exact and_bit5 _
  | 2 => exact and_bit7 _
  | 3 => exact and_bit5 _
  | 4 => exact and_bit7 _

end Sys2Proof.Machine
end

