-- ==== Sys2Proof/Laws/Decode.lean ====
section
/-! SUPPORT. The fields of words, and the register rows (30_encoding.md R93, R94, R99). -/

namespace Sys2Proof

/-! ### Fields of a T word (R93) -/

theorem tFields_kind (k : Nibble) (a : BusAddr) (v : Byte) :
    BitVec.extractLsb' 28 4 ((k ++ a ++ v : BitVec (4 + 20 + 8))) = k := by
  rw [BitVec.extractLsb'_append_eq_of_le (by omega), BitVec.extractLsb'_append_eq_of_le (by omega)]
  exact BitVec.extractLsb'_eq_self

theorem tFields_addr (k : Nibble) (a : BusAddr) (v : Byte) :
    BitVec.extractLsb' 8 20 ((k ++ a ++ v : BitVec (4 + 20 + 8))) = a := by
  rw [BitVec.extractLsb'_append_eq_of_le (by omega), BitVec.extractLsb'_append_eq_of_add_le (by omega)]
  exact BitVec.extractLsb'_eq_self

theorem tFields_data (k : Nibble) (a : BusAddr) (v : Byte) :
    BitVec.extractLsb' 0 8 ((k ++ a ++ v : BitVec (4 + 20 + 8))) = v :=
  BitVec.extractLsb'_append_eq_right

/-- A T word is its fields. -/
theorem tFields_eta (w : BitVec 32) :
    ((w.extractLsb' 28 4 ++ w.extractLsb' 8 20 ++ w.extractLsb' 0 8 : BitVec (4 + 20 + 8))) = w := by
  rw [BitVec.extractLsb'_append_extractLsb'_eq_extractLsb' (by omega),
    BitVec.extractLsb'_append_extractLsb'_eq_extractLsb' (by omega)]
  exact BitVec.extractLsb'_eq_self

/-! ### Fields of a C word (R94) -/

theorem cFields_kind (k z : Nibble) (a b : BusAddr) (v : BitVec 16) :
    BitVec.extractLsb' 60 4 ((k ++ z ++ a ++ b ++ v : BitVec (4 + 4 + 20 + 20 + 16))) = k := by
  rw [BitVec.extractLsb'_append_eq_of_le (by omega), BitVec.extractLsb'_append_eq_of_le (by omega),
    BitVec.extractLsb'_append_eq_of_le (by omega), BitVec.extractLsb'_append_eq_of_le (by omega)]
  exact BitVec.extractLsb'_eq_self

theorem cFields_zero (k z : Nibble) (a b : BusAddr) (v : BitVec 16) :
    BitVec.extractLsb' 56 4 ((k ++ z ++ a ++ b ++ v : BitVec (4 + 4 + 20 + 20 + 16))) = z := by
  rw [BitVec.extractLsb'_append_eq_of_le (by omega), BitVec.extractLsb'_append_eq_of_le (by omega),
    BitVec.extractLsb'_append_eq_of_le (by omega), BitVec.extractLsb'_append_eq_of_add_le (by omega)]
  exact BitVec.extractLsb'_eq_self

theorem cFields_first (k z : Nibble) (a b : BusAddr) (v : BitVec 16) :
    BitVec.extractLsb' 36 20 ((k ++ z ++ a ++ b ++ v : BitVec (4 + 4 + 20 + 20 + 16))) = a := by
  rw [BitVec.extractLsb'_append_eq_of_le (by omega), BitVec.extractLsb'_append_eq_of_le (by omega),
    BitVec.extractLsb'_append_eq_of_add_le (by omega)]
  exact BitVec.extractLsb'_eq_self

theorem cFields_last (k z : Nibble) (a b : BusAddr) (v : BitVec 16) :
    BitVec.extractLsb' 16 20 ((k ++ z ++ a ++ b ++ v : BitVec (4 + 4 + 20 + 20 + 16))) = b := by
  rw [BitVec.extractLsb'_append_eq_of_le (by omega), BitVec.extractLsb'_append_eq_of_add_le (by omega)]
  exact BitVec.extractLsb'_eq_self

theorem cFields_target (k z : Nibble) (a b : BusAddr) (v : BitVec 16) :
    BitVec.extractLsb' 0 16 ((k ++ z ++ a ++ b ++ v : BitVec (4 + 4 + 20 + 20 + 16))) = v :=
  BitVec.extractLsb'_append_eq_right

/-- A C word is its fields. -/
theorem cFields_eta (w : BitVec 64) :
    ((w.extractLsb' 60 4 ++ w.extractLsb' 56 4 ++ w.extractLsb' 36 20 ++ w.extractLsb' 16 20 ++ w.extractLsb' 0 16 :
      BitVec (4 + 4 + 20 + 20 + 16))) = w := by
  rw [BitVec.extractLsb'_append_extractLsb'_eq_extractLsb' (by omega),
    BitVec.extractLsb'_append_extractLsb'_eq_extractLsb' (by omega),
    BitVec.extractLsb'_append_extractLsb'_eq_extractLsb' (by omega),
    BitVec.extractLsb'_append_extractLsb'_eq_extractLsb' (by omega)]
  exact BitVec.extractLsb'_eq_self

/-! ### Targets (R94) -/

/-- The field of a legal target reads back as the target. -/
theorem decodeTarget_code {t : Target} (h : t.wf = true) : decodeTarget t.code = t := by
  cases t with
  | default => rfl
  | apu => rfl
  | ext id =>
    simp only [Target.wf, decide_eq_true_eq] at h
    unfold decodeTarget Target.code
    rw [if_neg, if_neg] <;> rintro rfl <;> simp at h

/-- Every field is the field of a legal target. -/
theorem code_decodeTarget (v : BitVec 16) : (decodeTarget v).code = v ∧ (decodeTarget v).wf = true := by
  unfold decodeTarget
  split_ifs with h0 h1
  · subst h0; exact ⟨rfl, rfl⟩
  · subst h1; exact ⟨rfl, rfl⟩
  · refine ⟨rfl, ?_⟩
    simp only [Target.wf, decide_eq_true_eq]
    have h0' : v.toNat ≠ 0 := fun h => h0 (BitVec.eq_of_toNat_eq h)
    have h1' : v.toNat ≠ 1 := fun h => h1 (BitVec.eq_of_toNat_eq h)
    omega

/-! ### Register rows (R99) -/

theorem rowAddr_low (hi : Nibble) (k : Fin 24) : (rowAddr hi k.val).setWidth 16 = BitVec.ofNat 16 (0x4000 + k.val) := by
  apply BitVec.eq_of_toNat_eq
  have := k.isLt
  rw [BitVec.toNat_setWidth, Machine.rowAddr_toNat, BitVec.toNat_ofNat]
  omega

/-- The row of a register row's address is the register. -/
theorem regRow_rowAddr (hi : Nibble) (k : Fin 24) : regRow (rowAddr hi k.val) = some k := by
  unfold regRow
  rw [rowAddr_low]
  fin_cases k <;> rfl

/-- Bits 19:16 of a register row's address are the operand `hi`. -/
theorem hi_rowAddr (hi : Nibble) (k : Fin 24) : (rowAddr hi k.val).extractLsb' 16 4 = hi :=
  BitVec.extractLsb'_append_eq_left

/-- An address in a register row is that row's address (R99). -/
theorem rowAddr_of_regRow {addr : BusAddr} {k : Fin 24} (h : regRow addr = some k) :
    rowAddr (addr.extractLsb' 16 4) k.val = addr := by
  have ha := addr.isLt
  have hk : (addr.setWidth 16 - BitVec.ofNat 16 apuBase).toNat = k.val ∧ k.val < 24 := by
    unfold regRow at h
    dsimp only at h
    split at h
    · exact ⟨congrArg Fin.val (Option.some.inj h), k.isLt⟩
    · cases h
  simp only [BitVec.toNat_sub, BitVec.toNat_ofNat, BitVec.toNat_setWidth, apuBase] at hk
  apply BitVec.eq_of_toNat_eq
  rw [Machine.rowAddr_toNat, BitVec.extractLsb'_toNat, Nat.shiftRight_eq_div_pow]
  omega

/-- The fallback rows are exactly the addresses of no register row. -/
theorem isRegRow_eq (addr : BusAddr) : isRegRow addr = (regRow addr).isSome := by
  unfold isRegRow regRow
  rw [apply_dite Option.isSome]
  simp only [BitVec.toNat_sub, BitVec.toNat_ofNat, BitVec.toNat_setWidth, apuBase, regCount, Option.isSome_some,
    Option.isSome_none]
  split <;> simp <;> omega

theorem decodeBusw_rowAddr (k : Fin 24) (hi : Nibble) (v : Byte) : decodeBusw (rowAddr hi k.val) v = wrRow k hi v := by
  unfold decodeBusw
  rw [regRow_rowAddr, hi_rowAddr]

theorem decodeBusr_rowAddr (k : Fin 24) (hi : Nibble) : decodeBusr (rowAddr hi k.val) = rdRow k hi := by
  unfold decodeBusr
  rw [regRow_rowAddr, hi_rowAddr]

/-! ### Kinds (R92) -/

theorem tWord_kind (k : Nibble) (a : BusAddr) (v : Byte) : (tWord k a v).kind = k := tFields_kind k a v

theorem cWord_kind (k : Nibble) (a b : BusAddr) (t : Target) : (cWord k a b t).kind = k := cFields_kind k 0 a b t.code

end Sys2Proof
end

