-- ==== Sys2Proof/Laws/Exec.lean ====
section
/-! SUPPORT. What an instruction can do, said once: the 57 rows are nine operations (30_encoding.md R99), and every
next state is one of the effects of `Effect`. -/

namespace Sys2Proof.Machine

/-! ### Acceptance -/

theorem accept_clear {s : State} (h : s.fault = none) (o : Result) : accept s o = o := by
  unfold accept; rw [h]

theorem accept_faulted {s : State} {f : FaultRecord} (h : s.fault = some f) (o : Result) :
    accept s o = .fault (.stuck f) := by
  unfold accept; rw [h]

theorem accept_next {s t : State} {o : Result} (h : accept s o = .next t) : s.fault = none ∧ o = .next t := by
  unfold accept at h
  split at h
  · next h' => exact ⟨h', h⟩
  · cases h

/-! ### The nine operations -/

/-- The meaning of an operation (R92). -/
def execOperation : Operation → State → Result
  | .busw addr data, s => busWrite addr data s
  | .busr addr, s => busRead addr s
  | .tick, s => execTick s
  | .consumed, s => execConsumed s
  | .start, s => execStart s
  | .stop, s => execStop s
  | .reset, s => execReset s
  | .mapr first last target, s => execMapr first last target s
  | .mapw first last target, s => execMapw first last target s

/-- Every row of the opcode table does what its operation does (R99). -/
theorem exec_eq (i : Instr) (s : State) : exec i s = execOperation i.operation s := by
  cases i <;> rfl

/-! ### The bus, case by case -/

theorem busWrite_default {s : State} (hf : s.fault = none) {addr : BusAddr}
    (h : s.wrh.lookup (slotOf s addr) = .default) (v : Byte) : busWrite addr v s = .next s := by
  unfold busWrite; rw [accept_clear hf, slot_eq]; simp only [h]

theorem busWrite_ext {s : State} (hf : s.fault = none) {addr : BusAddr} {id : BitVec 16}
    (h : s.wrh.lookup (slotOf s addr) = .ext id) (v : Byte) : busWrite addr v s = .next s := by
  unfold busWrite; rw [accept_clear hf, slot_eq]; simp only [h]

theorem busWrite_reaches {s : State} {addr : BusAddr} {k : Fin 24} (h : WriteReaches s addr k) (v : Byte) :
    busWrite addr v s = .next (writeRegister k v s) := by
  obtain ⟨hf, ha, ht⟩ := h
  unfold busWrite; rw [accept_clear hf, slot_eq]; simp only [ht]; rw [ha]; simp only [regIndex_reg]

theorem busWrite_outOfRange {s : State} (hf : s.fault = none) {addr : BusAddr}
    (h : s.wrh.lookup (slotOf s addr) = .apu) (ha : ¬(0x4000 ≤ slotOf s addr ∧ slotOf s addr < 0x4018)) (v : Byte) :
    busWrite addr v s = .next (raise (.regIndexOutOfRange (slotOf s addr)) s) := by
  unfold busWrite; rw [accept_clear hf, slot_eq]; simp only [h, regIndex_none ha]

theorem busRead_default {s : State} (hf : s.fault = none) {addr : BusAddr}
    (h : s.rdh.lookup (slotOf s addr) = .default) :
    busRead addr s = .next (raise (.unmappedRead (slotOf s addr)) s) := by
  unfold busRead; rw [accept_clear hf, slot_eq]; simp only [h]

theorem busRead_ext {s : State} (hf : s.fault = none) {addr : BusAddr} {id : BitVec 16}
    (h : s.rdh.lookup (slotOf s addr) = .ext id) :
    busRead addr s = .next (draw (reply (Config.extRead s.draws id.toNat (slotOf s addr)) s)) := by
  unfold busRead; rw [accept_clear hf, slot_eq]; simp only [h]

theorem busRead_reaches {s : State} {addr : BusAddr} {k : Fin 24} (h : ReadReaches s addr k) :
    busRead addr s = .next (reply s.reg[k] s) := by
  obtain ⟨hf, ha, ht⟩ := h
  unfold busRead; rw [accept_clear hf, slot_eq]; simp only [ht]; rw [ha]; simp only [regIndex_reg, readRegister]

theorem busRead_outOfRange {s : State} (hf : s.fault = none) {addr : BusAddr}
    (h : s.rdh.lookup (slotOf s addr) = .apu) (ha : ¬(0x4000 ≤ slotOf s addr ∧ slotOf s addr < 0x4018)) :
    busRead addr s = .next (raise (.regIndexOutOfRange (slotOf s addr)) s) := by
  unfold busRead; rw [accept_clear hf, slot_eq]; simp only [h, regIndex_none ha]

/-! ### Everything an operation can do -/

/-- `Effect s o t`: in `s` with no fault recorded, or for RESET in any state, `o` may lead to `t`. One constructor per
way to a next state. -/
inductive Effect (s : State) : Operation → State → Prop
  | reset : Effect s .reset (resetBlock s)
  | writeNothing {addr v} : s.fault = none → s.wrh.lookup (slotOf s addr) ≠ .apu → Effect s (.busw addr v) s
  | writeRegister {addr v k} : WriteReaches s addr k → Effect s (.busw addr v) (writeRegister k v s)
  | writeFault {addr v} : s.fault = none → s.wrh.lookup (slotOf s addr) = .apu →
      ¬(0x4000 ≤ slotOf s addr ∧ slotOf s addr < 0x4018) →
      Effect s (.busw addr v) (raise (.regIndexOutOfRange (slotOf s addr)) s)
  | readRegister {addr k} : ReadReaches s addr k → Effect s (.busr addr) (reply s.reg[k] s)
  | readExt {addr id} : s.fault = none → s.rdh.lookup (slotOf s addr) = .ext id →
      Effect s (.busr addr) (draw (reply (Config.extRead s.draws id.toNat (slotOf s addr)) s))
  | readUnmapped {addr} : s.fault = none → s.rdh.lookup (slotOf s addr) = .default →
      Effect s (.busr addr) (raise (.unmappedRead (slotOf s addr)) s)
  | readFault {addr} : s.fault = none → s.rdh.lookup (slotOf s addr) = .apu →
      ¬(0x4000 ≤ slotOf s addr ∧ slotOf s addr < 0x4018) →
      Effect s (.busr addr) (raise (.regIndexOutOfRange (slotOf s addr)) s)
  | tick : s.fault = none →
      Effect s .tick { publish s with timer := tickTimers s.cfg.tickPolicy s.reg s.timer }
  | consumed : s.fault = none → s.sink = .running → Effect s .consumed (refill s)
  | consumedNothing : s.fault = none → s.sink ≠ .running → Effect s .consumed (forget s)
  | start : s.fault = none → s.sink = .idle → Effect s .start (begin s)
  | stop : s.fault = none → s.sink = .running → Effect s .stop { s with queue := [], sink := .stopped }
  | stopNothing : s.fault = none → s.sink ≠ .running → Effect s .stop s
  | mapr {first last target} : s.fault = none →
      Effect s (.mapr first last target) { s with rdh := s.rdh.setRange first.toNat last.toNat target }
  | mapw {first last target} : s.fault = none →
      Effect s (.mapw first last target) { s with wrh := s.wrh.setRange first.toNat last.toNat target }

/-- The inversion of `exec`: a next state is one of the effects. -/
theorem exec_effect {i : Instr} {s t : State} (h : exec i s = .next t) : Effect s i.operation t := by
  rw [exec_eq] at h
  generalize i.operation = o at h
  cases o with
  | busw addr v =>
    obtain ⟨hf, h⟩ := accept_next h
    rw [slot_eq] at h
    dsimp only at h
    split at h
    · next hl => cases h; exact .writeNothing hf (by simp [hl])
    · next hl =>
      split at h
      · next hk => cases h; exact .writeRegister ⟨hf, regIndex_some hk, hl⟩
      · next hk => cases h; exact .writeFault hf hl (regIndex_eq_none hk)
    · next hl => cases h; exact .writeNothing hf (by simp [hl])
  | busr addr =>
    obtain ⟨hf, h⟩ := accept_next h
    rw [slot_eq] at h
    dsimp only at h
    split at h
    · next hl => cases h; exact .readUnmapped hf hl
    · next hl =>
      split at h
      · next hk => cases h; exact .readRegister ⟨hf, regIndex_some hk, hl⟩
      · next hk => cases h; exact .readFault hf hl (regIndex_eq_none hk)
    · next hl => cases h; exact .readExt hf hl
  | tick =>
    obtain ⟨hf, h⟩ := accept_next h
    cases h; exact .tick hf
  | consumed =>
    obtain ⟨hf, h⟩ := accept_next h
    split at h
    · next hs => cases h; exact .consumed hf hs
    · next hs => cases h; exact .consumedNothing hf (by simp [hs])
    · next hs => cases h; exact .consumedNothing hf (by simp [hs])
  | start =>
    obtain ⟨hf, h⟩ := accept_next h
    split at h
    · next hs => cases h; exact .start hf hs
    · cases h
    · cases h
  | stop =>
    obtain ⟨hf, h⟩ := accept_next h
    split at h
    · next hs => cases h; exact .stop hf hs
    · next hs => cases h; exact .stopNothing hf (by simp [hs])
    · next hs => cases h; exact .stopNothing hf (by simp [hs])
  | reset => cases h; exact .reset
  | mapr first last target =>
    obtain ⟨hf, h⟩ := accept_next h
    cases h; exact .mapr hf
  | mapw first last target =>
    obtain ⟨hf, h⟩ := accept_next h
    cases h; exact .mapw hf

/-! ### Operations spelled by one row only (R92) -/

theorem eq_reset {i : Instr} (h : i.operation = .reset) : i = .reset := by
  cases i <;> first | rfl | cases h

theorem eq_tick {i : Instr} (h : i.operation = .tick) : i = .tick := by
  cases i <;> first | rfl | cases h

theorem eq_consumed {i : Instr} (h : i.operation = .consumed) : i = .consumed := by
  cases i <;> first | rfl | cases h

/-! ### The parameters (R52) -/

theorem exec_cfg {i : Instr} {s t : State} (h : exec i s = .next t) : t.cfg = s.cfg := by
  have he := exec_effect h
  generalize i.operation = o at he
  cases he <;> first | rfl | simp

/-! ### The standard configuration (R69) -/

theorem Standard.writeReaches {s : State} (h : Standard s) (k : Fin 24) (hi : Nibble) :
    WriteReaches s (rowAddr hi k.val) k := by
  obtain ⟨hf, hb, ht⟩ := h
  have hs := slotOf_rowAddr (s := s) (by omega) (by omega) hi k
  have := k.isLt
  exact ⟨hf, hs, by rw [(standardTables_iff.mp ht _).2, hs, if_pos (by omega)]⟩

theorem Standard.readReaches {s : State} (h : Standard s) (k : Fin 24) (hi : Nibble) :
    ReadReaches s (rowAddr hi k.val) k := by
  obtain ⟨hf, hb, ht⟩ := h
  have hs := slotOf_rowAddr (s := s) (by omega) (by omega) hi k
  have := k.isLt
  exact ⟨hf, hs, by rw [(standardTables_iff.mp ht _).1, hs, if_pos (by omega)]⟩

/-- Row `WR.k` is the register write of index `k` (R69, R99). -/
theorem exec_wrRow {s : State} (h : Standard s) (k : Fin 24) (hi : Nibble) (v : Byte) :
    exec (wrRow k hi v) s = .next (writeRegister k v s) := by
  rw [exec_eq, operation_wrRow]
  exact busWrite_reaches (h.writeReaches k hi) v

/-- TICK, whole (R181). -/
theorem exec_tick {s : State} (hf : s.fault = none) :
    exec .tick s =
      .next { s with timer := tickTimers s.cfg.tickPolicy s.reg s.timer, published := keptAfter s } := by
  show execTick s = _
  unfold execTick
  rw [accept_clear hf, publish_eq]

end Sys2Proof.Machine
end

