-- ==== Sys2Proof/Laws/PerInstr.lean ====
section
/-! SUPPORT. The family `Kind`, one lemma per constructor: the top nibble of an instruction's word is the kind of its
operation (30_encoding.md R91, R92). -/

namespace Sys2Proof.Laws.Kind

/-- The word of `i` carries the kind of the operation `i` spells. -/
def Statement (i : Instr) : Prop := (encode i).kind = i.operation.kind

theorem wr00 (hi : Nibble) (data : Byte) : Statement (.wr00 hi data) := tWord_kind _ _ _
theorem wr01 (hi : Nibble) (data : Byte) : Statement (.wr01 hi data) := tWord_kind _ _ _
theorem wr02 (hi : Nibble) (data : Byte) : Statement (.wr02 hi data) := tWord_kind _ _ _
theorem wr03 (hi : Nibble) (data : Byte) : Statement (.wr03 hi data) := tWord_kind _ _ _
theorem wr04 (hi : Nibble) (data : Byte) : Statement (.wr04 hi data) := tWord_kind _ _ _
theorem wr05 (hi : Nibble) (data : Byte) : Statement (.wr05 hi data) := tWord_kind _ _ _
theorem wr06 (hi : Nibble) (data : Byte) : Statement (.wr06 hi data) := tWord_kind _ _ _
theorem wr07 (hi : Nibble) (data : Byte) : Statement (.wr07 hi data) := tWord_kind _ _ _
theorem wr08 (hi : Nibble) (data : Byte) : Statement (.wr08 hi data) := tWord_kind _ _ _
theorem wr09 (hi : Nibble) (data : Byte) : Statement (.wr09 hi data) := tWord_kind _ _ _
theorem wr0A (hi : Nibble) (data : Byte) : Statement (.wr0A hi data) := tWord_kind _ _ _
theorem wr0B (hi : Nibble) (data : Byte) : Statement (.wr0B hi data) := tWord_kind _ _ _
theorem wr0C (hi : Nibble) (data : Byte) : Statement (.wr0C hi data) := tWord_kind _ _ _
theorem wr0D (hi : Nibble) (data : Byte) : Statement (.wr0D hi data) := tWord_kind _ _ _
theorem wr0E (hi : Nibble) (data : Byte) : Statement (.wr0E hi data) := tWord_kind _ _ _
theorem wr0F (hi : Nibble) (data : Byte) : Statement (.wr0F hi data) := tWord_kind _ _ _
theorem wr10 (hi : Nibble) (data : Byte) : Statement (.wr10 hi data) := tWord_kind _ _ _
theorem wr11 (hi : Nibble) (data : Byte) : Statement (.wr11 hi data) := tWord_kind _ _ _
theorem wr12 (hi : Nibble) (data : Byte) : Statement (.wr12 hi data) := tWord_kind _ _ _
theorem wr13 (hi : Nibble) (data : Byte) : Statement (.wr13 hi data) := tWord_kind _ _ _
theorem wr14 (hi : Nibble) (data : Byte) : Statement (.wr14 hi data) := tWord_kind _ _ _
theorem wr15 (hi : Nibble) (data : Byte) : Statement (.wr15 hi data) := tWord_kind _ _ _
theorem wr16 (hi : Nibble) (data : Byte) : Statement (.wr16 hi data) := tWord_kind _ _ _
theorem wr17 (hi : Nibble) (data : Byte) : Statement (.wr17 hi data) := tWord_kind _ _ _
theorem rd00 (hi : Nibble) : Statement (.rd00 hi) := tWord_kind _ _ _
theorem rd01 (hi : Nibble) : Statement (.rd01 hi) := tWord_kind _ _ _
theorem rd02 (hi : Nibble) : Statement (.rd02 hi) := tWord_kind _ _ _
theorem rd03 (hi : Nibble) : Statement (.rd03 hi) := tWord_kind _ _ _
theorem rd04 (hi : Nibble) : Statement (.rd04 hi) := tWord_kind _ _ _
theorem rd05 (hi : Nibble) : Statement (.rd05 hi) := tWord_kind _ _ _
theorem rd06 (hi : Nibble) : Statement (.rd06 hi) := tWord_kind _ _ _
theorem rd07 (hi : Nibble) : Statement (.rd07 hi) := tWord_kind _ _ _
theorem rd08 (hi : Nibble) : Statement (.rd08 hi) := tWord_kind _ _ _
theorem rd09 (hi : Nibble) : Statement (.rd09 hi) := tWord_kind _ _ _
theorem rd0A (hi : Nibble) : Statement (.rd0A hi) := tWord_kind _ _ _
theorem rd0B (hi : Nibble) : Statement (.rd0B hi) := tWord_kind _ _ _
theorem rd0C (hi : Nibble) : Statement (.rd0C hi) := tWord_kind _ _ _
theorem rd0D (hi : Nibble) : Statement (.rd0D hi) := tWord_kind _ _ _
theorem rd0E (hi : Nibble) : Statement (.rd0E hi) := tWord_kind _ _ _
theorem rd0F (hi : Nibble) : Statement (.rd0F hi) := tWord_kind _ _ _
theorem rd10 (hi : Nibble) : Statement (.rd10 hi) := tWord_kind _ _ _
theorem rd11 (hi : Nibble) : Statement (.rd11 hi) := tWord_kind _ _ _
theorem rd12 (hi : Nibble) : Statement (.rd12 hi) := tWord_kind _ _ _
theorem rd13 (hi : Nibble) : Statement (.rd13 hi) := tWord_kind _ _ _
theorem rd14 (hi : Nibble) : Statement (.rd14 hi) := tWord_kind _ _ _
theorem rd15 (hi : Nibble) : Statement (.rd15 hi) := tWord_kind _ _ _
theorem rd16 (hi : Nibble) : Statement (.rd16 hi) := tWord_kind _ _ _
theorem rd17 (hi : Nibble) : Statement (.rd17 hi) := tWord_kind _ _ _
theorem busw (addr : BusAddr) (data : Byte) : Statement (.busw addr data) := tWord_kind _ _ _
theorem busr (addr : BusAddr) : Statement (.busr addr) := tWord_kind _ _ _
theorem tick : Statement .tick := tWord_kind _ _ _
theorem consumed : Statement .consumed := tWord_kind _ _ _
theorem start : Statement .start := tWord_kind _ _ _
theorem stop : Statement .stop := tWord_kind _ _ _
theorem reset : Statement .reset := tWord_kind _ _ _
theorem mapr (first last : BusAddr) (target : Target) : Statement (.mapr first last target) := cWord_kind _ _ _ _
theorem mapw (first last : BusAddr) (target : Target) : Statement (.mapw first last target) := cWord_kind _ _ _ _

end Sys2Proof.Laws.Kind
end

