-- ==== Sys2Proof/Laws/Registers.lean ====
section
/-! SUPPORT. What WriteRegister does to the timers (41_register_file.md R140, 42_timer_sequencer.md R171 to R175) and
what TICK does to each slot (R181). -/

namespace Sys2Proof.Machine

/-- A slot after a register write: its load value if the write is to its register, else what it was (R38, R140). -/
theorem writeRegister_timer_get (k : Fin 24) (v : Byte) (s : State) (c : Fin 5) :
    (writeRegister k v s).timer[c] = if k = loadIndex c then loadValue s.cfg c v else s.timer[c] := by
  unfold writeRegister reload
  fin_cases c <;> split <;>
    simp_all [loadIndex, loadValue, timerLoad_eq, linearLoad_eq, Fin.ext_iff] <;>
    exact fun h => absurd h (by assumption)

/-- A register after a register write (R140, R156). -/
theorem writeRegister_reg_get (k : Fin 24) (v : Byte) (s : State) (j : Fin 24) :
    (writeRegister k v s).reg[j] = if j = k then v else s.reg[j] := by
  rw [writeRegister_reg]
  simp [Vector.getElem_set, Fin.ext_iff, eq_comm]

/-- Slot by slot, TICK is `tickSlot` (R181). -/
theorem tickTimers_get (p : TickPolicy) (reg : Vector Byte 24) (timer : Vector Nat 5) (c : Fin 5) :
    (tickTimers p reg timer)[c] = tickSlot p reg timer c := by
  match c with
  | 0 => rfl
  | 1 => rfl
  | 2 => rfl
  | 3 => rfl
  | 4 => rfl

/-- One slot of a TICK by its halt bit (R181, R182). -/
theorem tickSlot_eq (p : TickPolicy) (reg : Vector Byte 24) (timer : Vector Nat 5) (c : Fin 5) :
    tickSlot p reg timer c = if p = .gated ∧ haltBit reg c = true then timer[c] else timer[c] - 1 := by
  unfold tickSlot live gate
  cases p
  · rw [halt_eq]
    by_cases h : haltBit reg c = true <;> by_cases h0 : 0 < timer[c] <;> simp_all
  · by_cases h0 : 0 < timer[c] <;> simp_all

theorem tickSlot_le (p : TickPolicy) (reg : Vector Byte 24) (timer : Vector Nat 5) (c : Fin 5) :
    tickSlot p reg timer c ≤ timer[c] := by
  rw [tickSlot_eq]
  split <;> omega

end Sys2Proof.Machine
end

