-- ==== Sys2Proof/Laws/Synthesizer.lean ====
section
/-! SUPPORT. Laws of the synthesizer: phases, and the shape of a pass (43_synthesizer.md). -/

namespace Sys2Proof.Machine

theorem frac_eq (q : Rat) : frac q = Int.fract q := by
  rfl

theorem frac_nonneg (q : Rat) : 0 ≤ frac q := by rw [frac_eq]; exact Int.fract_nonneg q

theorem frac_lt_one (q : Rat) : frac q < 1 := by rw [frac_eq]; exact Int.fract_lt_one q

/-- A phase lies in [0, 1) (R201). -/
theorem phase_range (f : Rat) (n : Nat) : 0 ≤ phase f n ∧ phase f n < 1 := ⟨frac_nonneg _, frac_lt_one _⟩

/-! ### The 16-bit range, in numbers (R6, R216) -/

@[simp] theorem pcmMin_eq : pcmMin = -32768 := by decide

@[simp] theorem pcmMax_eq : pcmMax = 32767 := by decide

/-- The two bytes of a sample make up its pattern modulo 65536 (R60). -/
theorem le16_eq (z : Int) :
    ∃ lo hi : Byte, le16 z = [lo, hi] ∧ (lo.toNat + 256 * hi.toNat : Int) = z % 65536 := by
  refine ⟨_, _, rfl, ?_⟩
  simp only [bitDepth, BitVec.extractLsb'_toNat, BitVec.toNat_ofInt, Nat.shiftRight_eq_div_pow]
  omega

@[simp] theorem le16_length (z : Int) : (le16 z).length = 2 := rfl

/-- A pass of `count` samples is `2 * count` bytes (R220). -/
@[simp] theorem passBytes_length (c : Config) (snap : Snapshot) (count n : Nat) :
    (passBytes c snap count n).length = 2 * count := by
  induction count generalizing n with
  | zero => rfl
  | succ m ih => simp only [passBytes, List.length_append, le16_length, ih]; omega

/-- A pass is a shorter pass and the rest of it, from the counter the first leaves (R221). -/
theorem passBytes_add (c : Config) (snap : Snapshot) (a b n : Nat) :
    passBytes c snap (a + b) n = passBytes c snap a n ++ passBytes c snap b (n + a) := by
  induction a generalizing n with
  | zero => simp [passBytes]
  | succ m ih =>
    rw [show m + 1 + b = m + b + 1 by omega]
    simp only [passBytes, ih, List.append_assoc]
    rw [show n + 1 + m = n + (m + 1) by omega]

/-- Under `AtRefill` a pass computes from the present registers and timers (R200). -/
theorem passSnapshot_atRefill {s : State} (h : s.cfg.snapshotMode = .atRefill) : passSnapshot s = s.snapshot := by
  unfold passSnapshot; rw [h]

/-- Under `LatestPublished` a pass computes from the present or a kept snapshot (R81). -/
theorem passSnapshot_mem (s : State) : passSnapshot s ∈ s.published ++ [s.snapshot] := by
  unfold passSnapshot
  split
  · simp
  · rw [List.getD_eq_getElem _ _ (by simpa using Nat.mod_lt _ (Nat.succ_pos _))]
    exact List.getElem_mem _

/-- The noise of a sample lies in [-1, 1] (R211). -/
theorem noise_range (n : Nat) : -1 ≤ noise n ∧ noise n ≤ 1 := by
  unfold noise
  exact ⟨le_max_left _ _, max_le (by norm_num) (min_le_left _ _)⟩

end Sys2Proof.Machine
end

