-- ==== Sys2Proof/Laws/Sink.lean ====
section
/-! SUPPORT. Laws of the sink: what START and CONSUMED leave (44_audio_sink.md R240, R243), and the rotation (R244). -/

namespace Sys2Proof.Machine

@[simp] theorem silence_length (c : Config) : (silence c).length = 2 * c.bufferSamples := by
  simp [silence, Config.bufferBytes, bytesPerSample, channels, bitDepth]

/-! ### START -/

/-- The prefill of buffers `k..k+count-1`, all at once (R240). -/
theorem prefillFrom_eq (count k : Nat) (s : State) (h : k + count ≤ s.buf.length) :
    prefillFrom count k s =
      { s with
        buf := s.buf.take k ++ List.replicate count (silence s.cfg) ++ s.buf.drop (k + count)
        pcmOut := s.pcmOut ++ List.replicate count (silence s.cfg)
        queue := s.queue ++ List.range' k count } := by
  induction count generalizing k s with
  | zero => simp [prefillFrom]
  | succ m ih =>
    have hk : k < s.buf.length := by omega
    rw [prefillFrom, ih _ _ (by simp only [submit_buf, putBuf_buf, List.length_set]; omega)]
    have hget : (s.buf.set k (silence s.cfg))[k]?.getD [] = silence s.cfg := by simp [hk]
    have htake : (s.buf.set k (silence s.cfg)).take (k + 1) = s.buf.take k ++ [silence s.cfg] := by
      rw [List.take_add_one, List.take_set_of_le (le_refl k)]
      simp [hk]
    have hdrop : (s.buf.set k (silence s.cfg)).drop (k + 1 + m) = s.buf.drop (k + (m + 1)) := by
      rw [List.drop_set_of_lt (by omega)]
      congr 1
      omega
    simp only [submit, putBuf, htake, hdrop, List.getD_eq_getElem?_getD, hget, List.append_assoc,
      List.cons_append, List.nil_append, List.replicate_succ, List.range'_succ]

/-- What START leaves: K silent buffers, all submitted in ascending order (R240). -/
theorem begin_eq (s : State) (h : s.buf.length = s.cfg.buffers) :
    begin s =
      { s with
        buf := List.replicate s.cfg.buffers (silence s.cfg)
        pcmOut := s.pcmOut ++ List.replicate s.cfg.buffers (silence s.cfg)
        queue := s.queue ++ List.range s.cfg.buffers
        cur := 0
        sink := .running } := by
  unfold begin
  rw [prefillFrom_eq _ _ _ (by omega), ← h, List.range_eq_range']
  simp

/-! ### CONSUMED -/

/-- The bytes of the next pass. -/
def nextPass (s : State) : List Byte := passBytes s.cfg (passSnapshot s) s.cfg.bufferSamples s.n

/-- What CONSUMED leaves in `Running` (R243). -/
theorem refill_eq (s : State) (h : s.cur < s.buf.length) :
    refill s =
      { s with
        queue := s.queue.tail ++ [s.cur]
        scratch := nextPass s
        n := s.n + s.cfg.bufferSamples
        buf := s.buf.set s.cur (nextPass s)
        pcmOut := s.pcmOut ++ [nextPass s]
        cur := (s.cur + 1) % s.cfg.buffers
        published := []
        draws := passDraws s } := by
  have e1 : passSnapshot (dequeue s) = passSnapshot s := rfl
  have e2 : passDraws (dequeue s) = passDraws s := rfl
  unfold refill rotate submit putBuf pass
  rw [e1, e2]
  have hget : ∀ b : List Byte, (s.buf.set s.cur b)[s.cur]?.getD [] = b := by intro b; simp [h]
  simp only [dequeue, List.getD_eq_getElem?_getD, hget, nextPass]

/-! ### The rotation (R244) -/

theorem rotation_zero (k : Nat) : rotation k 0 = List.range k := by
  simp [rotation, List.range_eq_range']

theorem rotation_cons {k cur : Nat} (h : cur < k) : rotation k cur = cur :: (List.range' (cur + 1) (k - cur - 1) ++ List.range cur) := by
  unfold rotation
  rw [show k - cur = (k - cur - 1) + 1 by omega, List.range'_succ]
  rfl

/-- Consuming the head and submitting it again turns the rotation by one (R243, R244). -/
theorem rotation_turn {k cur : Nat} (h : cur < k) :
    (rotation k cur).tail ++ [cur] = rotation k ((cur + 1) % k) := by
  rw [rotation_cons h, List.tail_cons, List.append_assoc, ← List.range_succ]
  by_cases hk : cur + 1 = k
  · subst hk
    simp [rotation_zero]
  · rw [Nat.mod_eq_of_lt (by omega), rotation, Nat.sub_sub]

theorem rotation_length {k cur : Nat} (h : cur < k) : (rotation k cur).length = k := by
  simp [rotation]; omega

end Sys2Proof.Machine
end

