-- ==== Sys2Proof/Laws/Tables.lean ====
section
/-! SUPPORT. Handler tables: what a lookup answers after `setRange`, and that `setRange` keeps the canonical form
(10_state.md R46, 40_bus.md R123, R124, R129). -/

namespace Sys2Proof.Machine

/-! ### What canonical means -/

/-- A run that holds a slot and a legal target other than `Default`. -/
def Run.Good (r : Run) : Prop := r.lo ≤ r.hi ∧ r.target ≠ .default ∧ r.target.wf = true

/-- Good runs, in rising order, none overlapping. -/
def Rising (rs : List Run) : Prop := (∀ r ∈ rs, r.Good) ∧ rs.Pairwise (fun r q => r.hi < q.lo)

/-- No two neighbours could be one run. -/
def Maximal (rs : List Run) : Prop := rs.IsChain (fun r q => r.joins q = false)

theorem rising_cons {r : Run} {rs : List Run} :
    Rising (r :: rs) ↔ r.Good ∧ (∀ q ∈ rs, r.hi < q.lo) ∧ Rising rs := by
  simp only [Rising, List.mem_cons, forall_eq_or_imp, List.pairwise_cons]
  tauto

theorem canonicalRuns_iff (rs : List Run) : canonicalRuns rs = true ↔ Rising rs ∧ Maximal rs := by
  induction rs with
  | nil => simp [canonicalRuns, Rising, Maximal]
  | cons r rs ih =>
    cases rs with
    | nil => simp [canonicalRuns, Rising, Maximal, Run.Good, and_assoc]
    | cons q qs =>
      have trans : q.lo ≤ q.hi → r.hi < q.lo → (∀ x ∈ qs, q.hi < x.lo) → ∀ x ∈ qs, r.hi < x.lo := by
        intro h1 h2 h3 x hx
        have := h3 x hx
        omega
      rw [canonicalRuns, Bool.and_eq_true, Bool.and_eq_true, ih, rising_cons (r := r), rising_cons]
      simp only [Maximal, List.isChain_cons_cons, Run.Good, Bool.and_eq_true, decide_eq_true_eq,
        Bool.not_eq_true', List.mem_cons, forall_eq_or_imp, ne_eq]
      constructor
      · rintro ⟨⟨⟨⟨h1, h2⟩, h3⟩, ⟨hg, ho, hr⟩, hc⟩, h8, h9⟩
        exact ⟨⟨⟨h1, h2, h3⟩, ⟨h8, trans hg.1 h8 ho⟩, hg, ho, hr⟩, h9, hc⟩
      · rintro ⟨⟨⟨h1, h2, h3⟩, ⟨h8, -⟩, hg, ho, hr⟩, h9, hc⟩
        exact ⟨⟨⟨⟨h1, h2⟩, h3⟩, ⟨hg, ho, hr⟩, hc⟩, h8, h9⟩

/-! ### Lookups -/

theorem lookupRuns_carve {lo hi : Nat} (h : lo ≤ hi) (rs : List Run) (a : Nat) :
    lookupRuns (rs.flatMap (carveRun lo hi)) a
      = if lo ≤ a ∧ a ≤ hi then .default else lookupRuns rs a := by
  induction rs with
  | nil => simp [lookupRuns]
  | cons r rs ih =>
    rw [List.flatMap_cons, carveRun]
    split <;> split <;>
      simp only [List.cons_append, List.nil_append, lookupRuns, ih] <;>
      split_ifs <;> first | rfl | (exfalso; omega)

theorem lookupRuns_insert {x : Run} {rs : List Run}
    (h : ∀ r ∈ rs, r.hi < x.lo ∨ x.hi < r.lo) (a : Nat) :
    lookupRuns (insertRun x rs) a
      = if x.lo ≤ a ∧ a ≤ x.hi then x.target else lookupRuns rs a := by
  induction rs with
  | nil => simp [insertRun, lookupRuns]
  | cons r rs ih =>
    have hr := h r (by simp)
    rw [insertRun]
    split
    · rfl
    · simp only [lookupRuns, ih fun q hq => h q (by simp [hq])]
      split_ifs <;> first | rfl | (exfalso; omega)

theorem lookupRuns_joinRun {r : Run} {qs : List Run} (hr : r.lo ≤ r.hi) (hq : ∀ q ∈ qs, q.lo ≤ q.hi)
    (a : Nat) : lookupRuns (joinRun r qs) a = lookupRuns (r :: qs) a := by
  cases qs with
  | nil => rfl
  | cons q qs =>
    have := hq q (by simp)
    rw [joinRun]
    split
    · next h =>
      simp only [Run.joins, Bool.and_eq_true, decide_eq_true_eq] at h
      simp only [lookupRuns, ← h.2]
      split_ifs <;> first | rfl | (exfalso; omega)
    · rfl

theorem joinRun_good {r : Run} {qs : List Run} (hr : r.Good) (hq : ∀ q ∈ qs, q.Good)
    (ho : ∀ q ∈ qs, r.hi < q.lo) : ∀ x ∈ joinRun r qs, x.Good := by
  cases qs with
  | nil => simpa [joinRun] using hr
  | cons q qs =>
    have h1 := hq q (by simp)
    have h2 := ho q (by simp)
    rw [joinRun]
    split
    · intro x hx
      rcases List.mem_cons.1 hx with rfl | hx
      · obtain ⟨a, b, c⟩ := hr
        obtain ⟨a', -, -⟩ := h1
        exact ⟨by dsimp only; omega, b, c⟩
      · exact hq x (by simp [hx])
    · intro x hx
      rcases List.mem_cons.1 hx with rfl | hx
      · exact hr
      · exact hq x hx

theorem joinRun_rising {r : Run} {qs : List Run} (h : Rising (r :: qs)) : Rising (joinRun r qs) := by
  obtain ⟨hr, ho, hq⟩ := rising_cons.1 h
  refine ⟨joinRun_good hr hq.1 ho, ?_⟩
  cases qs with
  | nil => simp [joinRun]
  | cons q qs =>
    rw [joinRun]
    split
    · obtain ⟨-, h1, h2⟩ := rising_cons.1 hq
      exact List.pairwise_cons.2 ⟨fun x hx => h1 x hx, h2.2⟩
    · exact h.2

theorem joinRun_maximal {r : Run} {qs : List Run} (h : Maximal qs) : Maximal (joinRun r qs) := by
  cases qs with
  | nil => simp [joinRun, Maximal]
  | cons q qs =>
    rw [joinRun]
    split
    · next hj =>
      simp only [Run.joins, Bool.and_eq_true, decide_eq_true_eq] at hj
      cases qs with
      | nil => simp [Maximal]
      | cons x xs =>
        simp only [Maximal, List.isChain_cons_cons] at h ⊢
        refine ⟨?_, h.2⟩
        simpa [Run.joins, hj.2] using h.1
    · next hj => exact List.isChain_cons_cons.2 ⟨by simpa using hj, h⟩

/-- Every slot a joined list holds, a run of the first list's end holds. -/
theorem joinRun_lo {r : Run} {qs : List Run} {b : Nat} (hr : b < r.lo) (hq : ∀ q ∈ qs, b < q.lo) :
    ∀ x ∈ joinRun r qs, b < x.lo := by
  cases qs with
  | nil => simpa [joinRun] using hr
  | cons q qs =>
    rw [joinRun]
    split
    · intro x hx
      rcases List.mem_cons.1 hx with rfl | hx
      · exact hr
      · exact hq x (by simp [hx])
    · intro x hx
      rcases List.mem_cons.1 hx with rfl | hx
      · exact hr
      · exact hq x hx

theorem joinRuns_lo {rs : List Run} {b : Nat} (h : ∀ r ∈ rs, b < r.lo) : ∀ x ∈ joinRuns rs, b < x.lo := by
  induction rs with
  | nil => simp [joinRuns]
  | cons r rs ih => exact joinRun_lo (h r (by simp)) (ih fun q hq => h q (by simp [hq]))

theorem joinRun_hi {r : Run} {qs : List Run} {m : Nat} (hr : r.hi ≤ m) (hq : ∀ q ∈ qs, q.hi ≤ m) :
    ∀ x ∈ joinRun r qs, x.hi ≤ m := by
  cases qs with
  | nil => simpa [joinRun] using hr
  | cons q qs =>
    rw [joinRun]
    split
    · intro x hx
      rcases List.mem_cons.1 hx with rfl | hx
      · exact hq q (by simp)
      · exact hq x (by simp [hx])
    · intro x hx
      rcases List.mem_cons.1 hx with rfl | hx
      · exact hr
      · exact hq x hx

theorem joinRuns_hi {rs : List Run} {m : Nat} (h : ∀ r ∈ rs, r.hi ≤ m) : ∀ x ∈ joinRuns rs, x.hi ≤ m := by
  induction rs with
  | nil => simp [joinRuns]
  | cons r rs ih => exact joinRun_hi (h r (by simp)) (ih fun q hq => h q (by simp [hq]))

/-- Joining keeps the order and makes every run as long as it can be. -/
theorem joinRuns_canonical {rs : List Run} (h : Rising rs) : Rising (joinRuns rs) ∧ Maximal (joinRuns rs) := by
  induction rs with
  | nil => simp [joinRuns, Rising, Maximal]
  | cons r rs ih =>
    obtain ⟨hr, ho, hq⟩ := rising_cons.1 h
    obtain ⟨h1, h2⟩ := ih hq
    exact ⟨joinRun_rising (rising_cons.2 ⟨hr, joinRuns_lo ho, h1⟩), joinRun_maximal h2⟩

theorem lookupRuns_joinRuns {rs : List Run} (h : Rising rs) (a : Nat) :
    lookupRuns (joinRuns rs) a = lookupRuns rs a := by
  induction rs with
  | nil => rfl
  | cons r rs ih =>
    obtain ⟨hr, -, hq⟩ := rising_cons.1 h
    rw [joinRuns, lookupRuns_joinRun hr.1 fun q h' => ((joinRuns_canonical hq).1.1 q h').1]
    simp only [lookupRuns, ih hq]

/-! ### Carving and inserting keep the order -/

theorem mem_carveRun {lo hi : Nat} {r x : Run} (h : x ∈ carveRun lo hi r) :
    r.lo ≤ x.lo ∧ x.hi ≤ r.hi ∧ x.target = r.target ∧ (x.hi < lo ∨ hi < x.lo)
      ∧ (r.lo ≤ r.hi → x.lo ≤ x.hi) := by
  unfold carveRun at h
  rcases List.mem_append.1 h with h | h <;> split at h <;> simp only [List.mem_singleton, List.not_mem_nil] at h
  · subst h; dsimp only; refine ⟨le_refl _, by omega, rfl, by omega, by omega⟩
  · subst h; dsimp only; refine ⟨by omega, le_refl _, rfl, by omega, by omega⟩

theorem carve_rising {lo hi : Nat} {rs : List Run} (hlh : lo ≤ hi) (h : Rising rs) :
    Rising (rs.flatMap (carveRun lo hi)) := by
  refine ⟨?_, ?_⟩
  · intro x hx
    obtain ⟨r, hr, hx⟩ := List.mem_flatMap.1 hx
    obtain ⟨-, -, ht, -, hl⟩ := mem_carveRun hx
    obtain ⟨a, b, c⟩ := h.1 r hr
    exact ⟨hl a, by rwa [ht], by rwa [ht]⟩
  · rw [List.pairwise_flatMap]
    refine ⟨?_, h.2.imp ?_⟩
    · intro r _
      unfold carveRun
      split <;> split <;> simp
      omega
    · intro r q hrq x hx y hy
      have h1 := mem_carveRun hx
      have h2 := mem_carveRun hy
      omega

theorem insert_rising {x : Run} {rs : List Run} (hx : x.Good) (h : Rising rs)
    (hd : ∀ r ∈ rs, r.hi < x.lo ∨ x.hi < r.lo) : Rising (insertRun x rs) := by
  induction rs with
  | nil => simpa [insertRun, Rising] using hx
  | cons r rs ih =>
    obtain ⟨hr, ho, hq⟩ := rising_cons.1 h
    have hxr := hd r (by simp)
    have hgr := hr.1
    have hgx := hx.1
    rw [insertRun]
    split
    · next hlt =>
      refine rising_cons.2 ⟨hx, ?_, h⟩
      intro q hq'
      rcases List.mem_cons.1 hq' with rfl | hq'
      · omega
      · have := ho q hq'
        omega
    · next hlt =>
      refine rising_cons.2 ⟨hr, ?_, ih hq fun q hq' => hd q (by simp [hq'])⟩
      have key : ∀ (l : List Run), (∀ q ∈ l, r.hi < q.lo) → ∀ q ∈ insertRun x l, r.hi < q.lo := by
        intro l
        induction l with
        | nil =>
          intro _ q hq'
          simp only [insertRun, List.mem_singleton] at hq'
          subst hq'; omega
        | cons p l ihl =>
          intro hl q hq'
          rw [insertRun] at hq'
          split at hq'
          · rcases List.mem_cons.1 hq' with rfl | hq'
            · omega
            · exact hl q hq'
          · rcases List.mem_cons.1 hq' with rfl | hq'
            · exact hl q (by simp)
            · exact ihl (fun y hy => hl y (by simp [hy])) q hq'
      exact key rs ho

theorem mem_insertRun {x y : Run} {rs : List Run} (h : y ∈ insertRun x rs) : y = x ∨ y ∈ rs := by
  induction rs with
  | nil => simpa [insertRun] using h
  | cons r rs ih =>
    rw [insertRun] at h
    split at h
    · simpa using h
    · rcases List.mem_cons.1 h with rfl | h
      · simp
      · rcases ih h with h | h <;> simp [h]

/-- The runs of a table after `setRange`, before joining, are in order. -/
theorem setRange_rising {lo hi : Nat} {target : Target} {rs : List Run} (hlh : lo ≤ hi) (hw : target.wf = true)
    (h : Rising rs) :
    Rising (if target = .default then rs.flatMap (carveRun lo hi)
      else insertRun ⟨lo, hi, target⟩ (rs.flatMap (carveRun lo hi))) := by
  split
  · exact carve_rising hlh h
  · next ht =>
    refine insert_rising ⟨hlh, ht, hw⟩ (carve_rising hlh h) ?_
    intro r hr
    obtain ⟨q, -, hr⟩ := List.mem_flatMap.1 hr
    exact (mem_carveRun hr).2.2.2.1

/-! ### The two laws of `setRange` -/

/-- What a lookup answers after `setRange`: the target inside the range, the old answer outside (R123, R124). -/
theorem lookup_setRange {mask : Nat} {t : HandlerTable} (h : t.wf mask = true) {target : Target}
    (hw : target.wf = true) (lo hi a : Nat) :
    (t.setRange lo hi target).lookup a = if lo ≤ a ∧ a ≤ hi then target else t.lookup a := by
  have hr : Rising t.runs := ((canonicalRuns_iff _).1 (by
    simp only [HandlerTable.wf, Bool.and_eq_true] at h; exact h.1)).1
  unfold HandlerTable.setRange HandlerTable.lookup
  by_cases hlh : hi < lo
  · rw [if_pos hlh, if_neg (by omega)]
  · have hlh : lo ≤ hi := by omega
    rw [if_neg (by omega)]
    dsimp only
    rw [lookupRuns_joinRuns (setRange_rising hlh hw hr)]
    by_cases ht : target = .default
    · rw [if_pos ht, lookupRuns_carve hlh, ht]
    · rw [if_neg ht, lookupRuns_insert, lookupRuns_carve hlh]
      · dsimp only
        split_ifs <;> rfl
      · intro r hr
        obtain ⟨q, -, hr⟩ := List.mem_flatMap.1 hr
        exact (mem_carveRun hr).2.2.2.1

/-- `setRange` keeps the canonical form and the mask. -/
theorem setRange_wf {mask : Nat} {t : HandlerTable} (h : t.wf mask = true) {target : Target}
    (hw : target.wf = true) (lo : Nat) {hi : Nat} (hm : hi ≤ mask) : (t.setRange lo hi target).wf mask = true := by
  have h' := h
  simp only [HandlerTable.wf, Bool.and_eq_true, List.all_eq_true, decide_eq_true_eq] at h ⊢
  obtain ⟨hc, hb⟩ := h
  have hr := ((canonicalRuns_iff _).1 hc).1
  unfold HandlerTable.setRange
  by_cases hlh : hi < lo
  · rw [if_pos hlh]; exact ⟨hc, hb⟩
  · have hlh : lo ≤ hi := by omega
    rw [if_neg (by omega)]
    refine ⟨(canonicalRuns_iff _).2 (joinRuns_canonical (setRange_rising hlh hw hr)), ?_⟩
    apply joinRuns_hi
    have hcarve : ∀ x ∈ t.runs.flatMap (carveRun lo hi), x.hi ≤ mask := by
      intro x hx
      obtain ⟨r, hr', hx⟩ := List.mem_flatMap.1 hx
      have := hb r hr'
      have := mem_carveRun hx
      omega
    split
    · exact hcarve
    · intro x hx
      rcases mem_insertRun hx with rfl | hx
      · exact hm
      · exact hcarve x hx

/-- Every table operation starts from and keeps the canonical form: the empty table has it (R51). -/
theorem empty_wf (mask : Nat) : (HandlerTable.mk []).wf mask = true := rfl

/-- An empty table answers `Default` everywhere (R51, R129). -/
@[simp] theorem lookup_empty (a : Nat) : (HandlerTable.mk []).lookup a = .default := rfl

end Sys2Proof.Machine
end

