-- ==== Sys2Proof/Tests/Slice0.lean ====
section
/-! SUPPORT. The model's own tests: expected values from 95_test_vectors.md and from words written out by hand from
30_encoding.md, and for every obligation with hypotheses a witness that meets them (`witness_<obligation>`). -/

namespace Sys2Proof.Tests

open Sys2Proof Sys2Proof.Machine

/-! ### Small states -/

/-- Defaults but `SCALE = 4` and eight samples a buffer. -/
def small : Config := { Config.default with scale := 4, bufferSamples := 8 }

/-- After RESET, with the tables of BIND (R69). -/
def bound (c : Config) : State :=
  { State.resetWith c with rdh := ⟨[⟨0x4000, 0x4017, .apu⟩]⟩, wrh := ⟨[⟨0x4000, 0x4017, .apu⟩]⟩ }

/-- The standard configuration with registers and timers given. -/
def withTimers (c : Config) (regs : List (Fin 24 × Byte)) (timer : Vector Nat 5) : State :=
  { bound c with reg := regs.foldl (fun r e => r.set e.1 e.2) (Vector.replicate 24 0), timer := timer }

/-- A running sink of two buffers (K2). -/
def running : State := { bound small with sink := .running, queue := [0, 1],
                                          pcmOut := List.replicate 2 (List.replicate 16 0) }

/-- The state with a fault recorded. -/
def faulted : State := { bound small with fault := some (.unmappedRead 0x2002) }

/-- A field of the next state. -/
def after {α : Type} (i : Instr) (s : State) (f : State → α) : Option α :=
  match exec i s with
  | .next t => some (f t)
  | .fault _ => none
  | .refused _ => none

theorem exec_of_after {i : Instr} {s t : State} (h : after i s id = some t) : exec i s = .next t := by
  unfold after at h
  split at h <;> simp_all

/-! ### WellFormed refuses (30_encoding.md R94, R99, R100) -/

theorem test_wf_busw_in_register_row : (Instr.busw 0x4000 0).wf 0xFFFF = false := by decide
theorem test_wf_busr_in_register_row : (Instr.busr 0xF4017).wf 0xFFFF = false := by decide
theorem test_wf_mapr_first_above_mask : (Instr.mapr 0x10000 0x4017 .apu).wf 0xFFFF = false := by decide
theorem test_wf_mapr_last_above_mask : (Instr.mapr 0x4000 0x10000 .apu).wf 0xFFFF = false := by decide
theorem test_wf_mapw_first_above_mask : (Instr.mapw 0x10000 0x4017 .apu).wf 0xFFFF = false := by decide
theorem test_wf_mapw_last_above_mask : (Instr.mapw 0x4000 0x10000 .apu).wf 0xFFFF = false := by decide
theorem test_wf_ext_id_too_small :
    (Instr.mapr 0 1 (.ext 1)).wf 0xFFFF = false ∧ (Instr.mapw 0 1 (.ext 0)).wf 0xFFFF = false := by decide

/-! ### Decoding: every constructor by a word written out from R93, R94 -/

theorem test_decode_wr : ∀ e ∈ ([
    (0x104000A5, .wr00 0 0xA5), (0x114001A5, .wr01 1 0xA5), (0x124002A5, .wr02 2 0xA5), (0x134003A5, .wr03 3 0xA5),
    (0x144004A5, .wr04 4 0xA5), (0x154005A5, .wr05 5 0xA5), (0x164006A5, .wr06 6 0xA5), (0x174007A5, .wr07 7 0xA5),
    (0x184008A5, .wr08 8 0xA5), (0x194009A5, .wr09 9 0xA5), (0x1A400AA5, .wr0A 0xA 0xA5),
    (0x1B400BA5, .wr0B 0xB 0xA5), (0x1C400CA5, .wr0C 0xC 0xA5), (0x1D400DA5, .wr0D 0xD 0xA5),
    (0x1E400EA5, .wr0E 0xE 0xA5), (0x1F400FA5, .wr0F 0xF 0xA5), (0x104010FF, .wr10 0 0xFF), (0x10401101, .wr11 0 1),
    (0x10401202, .wr12 0 2), (0x10401303, .wr13 0 3), (0x10401404, .wr14 0 4), (0x10401505, .wr15 0 5),
    (0x10401606, .wr16 0 6), (0x1F401707, .wr17 0xF 7)] : List (BitVec 32 × Instr)),
    decode 0xFFFF (.t e.1) = .ok e.2 := by decide

theorem test_decode_rd : ∀ e ∈ ([
    (0x20400000, .rd00 0), (0x21400100, .rd01 1), (0x22400200, .rd02 2), (0x23400300, .rd03 3),
    (0x24400400, .rd04 4), (0x25400500, .rd05 5), (0x26400600, .rd06 6), (0x27400700, .rd07 7),
    (0x28400800, .rd08 8), (0x29400900, .rd09 9), (0x2A400A00, .rd0A 0xA), (0x2B400B00, .rd0B 0xB),
    (0x2C400C00, .rd0C 0xC), (0x2D400D00, .rd0D 0xD), (0x2E400E00, .rd0E 0xE), (0x2F400F00, .rd0F 0xF),
    (0x20401000, .rd10 0), (0x20401100, .rd11 0), (0x20401200, .rd12 0), (0x20401300, .rd13 0),
    (0x20401400, .rd14 0), (0x20401500, .rd15 0), (0x20401600, .rd16 0), (0x2F401700, .rd17 0xF)] :
    List (BitVec 32 × Instr)), decode 0xFFFF (.t e.1) = .ok e.2 := by decide

theorem test_decode_other_t : ∀ e ∈ ([
    (0x13FFFFFF, .busw 0x3FFFF 0xFF), (0x1040180A, .busw 0x04018 0x0A), (0x20200200, .busr 0x02002),
    (0x203FFF00, .busr 0x03FFF), (0x30000000, .tick), (0x40000000, .consumed), (0x50000000, .start),
    (0x60000000, .stop), (0x70000000, .reset)] : List (BitVec 32 × Instr)),
    decode 0xFFFF (.t e.1) = .ok e.2 := by decide

theorem test_decode_c : ∀ e ∈ ([
    (0x8004000040170001, .mapr 0x4000 0x4017 .apu), (0x8004015040150000, .mapr 0x4015 0x4015 .default),
    (0x80000000FFFFFFFF, .mapr 0x0000 0x0FFFF (.ext 0xFFFF)), (0x9004016040170002, .mapw 0x4016 0x4017 (.ext 2)),
    (0x900FFFF000000001, .mapw 0xFFFF 0x0000 .apu)] : List (BitVec 64 × Instr)),
    decode 0xFFFF (.c e.1) = .ok e.2 := by decide

/-- F4, and each clause of R100. -/
theorem test_decode_refuses :
    decode 0xFFFF (.t 0x00000000) = .error (.reservedKind 0) ∧ decode 0xFFFF (.t 0xA0000000) = .error (.reservedKind 0xA)
    ∧ decode 0xFFFF (.t 0x30000001) = .error .nonzeroData ∧ decode 0xFFFF (.t 0x20400001) = .error .nonzeroData
    ∧ decode 0xFFFF (.t 0x70000100) = .error .nonzeroAddr
    ∧ decode 0xFFFF (.c 0x8104000040170001) = .error .nonzeroBits
    ∧ decode 0xFFFF (.c 0x8010000040170001) = .error .startAboveMask
    ∧ decode 0xFFFF (.c 0x9004000100000001) = .error .endAboveMask
    ∧ decode 0xFFFF (.c 0xA000000000000000) = .error (.reservedKind 0xA)
    ∧ decode 0xFFFF (.t 0x80000000) = .error (.wrongLength 8)
    ∧ decode 0xFFFF (.c 0x1000000000000000) = .error (.wrongLength 1) := by decide

theorem test_decodeTableWord : decodeTableWord 32 0x10400308 = some (.wr03 0 8)
    ∧ decodeTableWord 64 0x9004016040170002 = some (.mapw 0x4016 0x4017 (.ext 2))
    ∧ decodeTableWord 32 0 = none := by decide

/-- Two words of a listing, the first of 8 digits, the second of 16 (R91, R95). -/
theorem test_nextWord :
    nextWord [3, 0, 0, 0, 0, 0, 0, 0, 8, 0, 0, 4] = .ok (.t 0x30000000, [8, 0, 0, 4])
    ∧ nextWord [8, 0, 0, 4, 0, 0, 0, 0, 4, 0, 1, 7, 0, 0, 0, 1] = .ok (.c 0x8004000040170001, [])
    ∧ nextWord [3, 0] = .error .truncated ∧ nextWord [0] = .error (.reservedKind 0) := by decide

/-- R102, R103. -/
theorem test_listing : (Instr.consumed).operation.line = "A: CONSUMED" ∧ replyText 0x4015 1 = "RD $4015 -> $01"
    ∧ (Operation.mapw 0x14016 0x14017 (.ext 65535)).text = "MAPW $14016, $14017, EXT(65535)"
    ∧ wreg 0x15 1 = .wr15 0 1 ∧ rreg 0x17 = .rd17 0
    ∧ bootOps = [.reset, .mapr 0x4000 0x4017 .apu, .mapw 0x4000 0x4017 .apu, .start] := by decide

/-! ### The step (withFetchWord; R100, R292) -/

theorem test_step_fetches : step (State.reset.withFetchWord 32 0x70000000) = .next { State.reset with pos := 1 } := by
  rfl
theorem test_step_waits : step State.reset = .next State.reset := by rfl
theorem test_step_illFormed : step (State.reset.withFetchWord 32 0) = .refused (.illFormed 0 (.reservedKind 0)) := by
  rfl
/-- P4: "refused (faulted)", and the trace goes on. -/
theorem test_step_faulted : step { faulted with trace := [.t 0x40000000, .t 0x70000000] }
    = .next { faulted with trace := [.t 0x70000000], pos := 1 } := by rfl

/-! ### Bus (B1 to B13) -/

theorem test_B1 : exec (.rd15 0) (State.resetWith small)
    = .next { State.resetWith small with fault := some (.unmappedRead 0x4015) } := by rfl
theorem test_B2 : exec (.wr15 0 1) (State.resetWith small) = .next (State.resetWith small) := by rfl
theorem test_B3 : after (.rd15 0) (withTimers small [(0x15, 1)] (Vector.replicate 5 0)) (·.replies) = some [1] := by
  decide
theorem test_B4 : after (.wr03 1 8) (bound small) id = some (withTimers small [(3, 8)] #v[1016, 0, 0, 0, 0]) := by
  decide
theorem test_B5 : exec (.busr 0x4018) (bound small)
    = .next { bound small with fault := some (.unmappedRead 0x4018) } := by rfl
theorem test_B6 : exec (.busw 0x4018 0xFF) (bound small) = .next (bound small) := by rfl
theorem test_B8 : after (.mapw 0x4016 0x4017 (.ext 2)) (bound small) (fun t =>
      (t.wrh, t.rdh, after (.wr17 0 0xC0) t id, after (.rd17 0) t (·.replies)))
    = some (⟨[⟨0x4000, 0x4015, .apu⟩, ⟨0x4016, 0x4017, .ext 2⟩]⟩, ⟨[⟨0x4000, 0x4017, .apu⟩]⟩,
        after (.mapw 0x4016 0x4017 (.ext 2)) (bound small) id, some [0]) := by decide
theorem test_B9 : after (.mapr 0x4000 0x4018 .apu) (State.resetWith small) (fun t => after (.busr 0x4018) t (·.fault))
    = some (some (some (.regIndexOutOfRange 0x4018))) := by decide
theorem test_B10 : after (.mapr 0x4015 0x4015 .default) (bound small) (fun t => after (.rd15 0) t (·.fault))
    = some (some (some (.unmappedRead 0x4015))) := by decide
theorem test_B11 : exec (.mapr 0x4017 0x4000 .apu) (State.resetWith small) = .next (State.resetWith small) := by rfl
theorem test_B12 : exec (.wr15 0 1) faulted = .fault (.stuck (.unmappedRead 0x2002)) := by rfl
theorem test_B13 : after (.mapr 0x8000 0x8000 (.ext 7)) (State.resetWith small)
    (fun t => after (.busr 0x8000) t (fun u => (u.replies.length, u.fault))) = some (some (1, none)) := by decide

/-! ### Register file (W1 to W16) -/

theorem test_W1 : after (.wr00 0 0xFF) (bound small) (fun t => (t.reg[0x00], halt t.reg 0, t.timer))
    = some (0xFF, true, Vector.replicate 5 0) := by decide
theorem test_W2 : after (.wr03 0 7) (withTimers small [(2, 0xFF)] (Vector.replicate 5 0))
    (fun t => (pulse1Period t.snapshot, t.timer)) = some (2047, #v[40, 0, 0, 0, 0]) := by decide
theorem test_W4 : after (.wr07 0 0x0B) (bound small) (fun t => (pulse2Period t.snapshot, t.timer))
    = some (768, #v[0, 1016, 0, 0, 0]) := by decide
theorem test_W5 : after (.wr08 0 0x85) (bound small) (fun t => (t.reg[0x08], t.timer, halt t.reg 2, halt t.reg 4))
    = some (0x85, #v[0, 0, 0, 0, 20], true, true) := by decide
theorem test_W7 : after (.wr08 0 0x7F) (bound small) (fun t => (t.timer, halt t.reg 2))
    = some (#v[0, 0, 0, 0, 508], false) := by decide
theorem test_W8 : after (.wr0B 0 0xF8) (withTimers small [] #v[0, 0, 0, 0, 3]) (·.timer)
    = some #v[0, 0, 120, 0, 3] := by decide
theorem test_W9 : after (.wr0F 0 0x0F) (bound small) id
    = some (withTimers small [(0x0F, 0x0F)] #v[0, 0, 0, 1016, 0]) := by decide
theorem test_W10_W12 : ∀ e ∈ ([(.wr0E 0 0x8F, 0x0E, 0x8F), (.wr17 0 0xC0, 0x17, 0xC0), (.wr14 0 2, 0x14, 2),
    (.wr10 0 0x0F, 0x10, 0x0F), (.wr01 0 9, 0x01, 9), (.wr05 0 9, 0x05, 9), (.wr09 0 9, 0x09, 9),
    (.wr0D 0 9, 0x0D, 9), (.wr11 0 9, 0x11, 9), (.wr12 0 9, 0x12, 9), (.wr13 0 9, 0x13, 9), (.wr16 0 9, 0x16, 9),
    (.wr02 0 9, 0x02, 9), (.wr06 0 9, 0x06, 9), (.wr0A 0 9, 0x0A, 9), (.wr04 0 0x20, 0x04, 0x20),
    (.wr0C 0 0x20, 0x0C, 0x20)] : List (Instr × Fin 24 × Byte)),
    after e.1 (bound small) id = some (withTimers small [e.2] (Vector.replicate 5 0)) := by decide
theorem test_W11 : after (.wr15 0 0x1F) (bound small) id = some (withTimers small [(0x15, 0x1F)] (Vector.replicate 5 0))
    ∧ [Channel.pulse1, .pulse2, .triangle, .noise].map (enabled (withTimers small [(0x15, 0x1F)] #v[0, 0, 0, 0, 0]).reg)
      = [true, true, true, true] := by decide
theorem test_W14 : after (.rd15 0) (withTimers small [(0x15, 0x0F)] (Vector.replicate 5 0)) (·.replies)
    = some [0x0F] := by decide
/-- Each register read returns its own byte and nothing else changes. -/
theorem test_W16 : ∀ k : Fin 24, after (rdRow k 3) (withTimers small [(k, 0xC3)] #v[1, 2, 3, 4, 5]) id
    = some { withTimers small [(k, 0xC3)] #v[1, 2, 3, 4, 5] with replies := [0xC3] } := by decide

/-! ### Timers (T1 to T11) -/

theorem test_T1 : after .tick (withTimers small [(0, 0x20)] #v[3, 0, 2, 1, 2]) (·.timer)
    = some #v[3, 0, 1, 0, 1] := by decide
theorem test_T2 : after .tick (withTimers { small with tickPolicy := .unconditional } [(0, 0x20)] #v[3, 0, 2, 1, 2])
    (·.timer) = some #v[2, 0, 1, 0, 1] := by decide
theorem test_T5 : after .tick (withTimers small [(8, 0x80)] #v[5, 5, 5, 5, 5]) (·.timer)
    = some #v[4, 4, 5, 4, 5] := by decide
theorem test_T6 : after .tick (withTimers small [(0, 0x20), (4, 0x20), (0xC, 0x20), (8, 0x80)] #v[5, 5, 5, 5, 5])
    (·.timer) = some #v[5, 5, 5, 5, 5] := by decide

/-! ### Synthesizer (Y1 to Y16): the sample, by snapshot, sample number and noise value -/

/-- The snapshot of registers and timers given. -/
def snapOf (regs : List (Fin 24 × Byte)) (timer : Vector Nat 5) : Snapshot := (withTimers small regs timer).snapshot

/-- Pulse-1 alone, period 32. -/
def pulse32 : Snapshot := snapOf [(0x15, 1), (2, 0x20)] #v[1, 0, 0, 0, 0]

/-- All channels (Y13). -/
def allOn : Snapshot := snapOf [(0x15, 0x0F), (2, 253), (6, 253), (0xA, 255)] #v[1, 1, 1, 1, 1]

theorem test_Y1_to_Y4 : [0, 6, 7, 13, 14].map (fun n => sample small pulse32 n 0)
    = [2464, 2464, -2464, -2464, 2464] := by decide +kernel
theorem test_Y5_Y6 : sample small (snapOf [(0x15, 1), (2, 7)] #v[1, 0, 0, 0, 0]) 0 0 = 0
    ∧ sample small (snapOf [(0x15, 1), (2, 8)] #v[1, 0, 0, 0, 0]) 0 0 = 2464 := by decide +kernel
theorem test_Y9 : (List.range 4).map (fun n => sample small (snapOf [(0x15, 3), (2, 253), (6, 253)] #v[1, 1, 0, 0, 0]) n 0)
    = [4928, 4928, 4928, 4928] := by decide +kernel
theorem test_Y10 : (List.range 8).map (fun n => sample small (snapOf [(0x15, 4), (0xA, 255)] #v[0, 0, 1, 0, 1]) n 0)
    = [0, 55, 110, 165, 221, 276, 331, 386] := by decide +kernel
theorem test_Y11 : sample small (snapOf [(0x15, 4), (0xA, 255)] #v[0, 0, 1, 0, 0]) 3 0 = 0
    ∧ sample small (snapOf [(0x15, 4), (0xA, 255)] #v[0, 0, 0, 0, 1]) 3 0 = 0 := by decide +kernel
theorem test_Y12 : [1, -1, 1 / 3, -(1 / 3)].map (sample small (snapOf [(0x15, 8)] #v[0, 0, 0, 1, 0]) 5)
    = [1618, -1618, 539, -539] := by decide +kernel
theorem test_Y13 : (List.range 4).map (fun n => sample small allOn n (1 / 2)) = [5737, 5792, 5848, 5903] := by
  decide +kernel
theorem test_Y14 : (List.range 4).map (fun n => sample { small with mixPolicy := .arithmeticMean } allOn n (1 / 2))
    = [20479, 20641, 20804, 20966] := by decide +kernel
theorem test_Y15 : sample { small with mixPolicy := .arithmeticMean } pulse32 0 0 = 32767 := by decide +kernel
/-- Another `PCM_SCALE` meets the clip (R217), and 2464 and -2464 as bytes (R60). -/
theorem test_clip_and_bytes : toPcm 32768 1 = 32767 ∧ toPcm 40000 (-1) = -32768
    ∧ le16 2464 = [0xA0, 0x09] ∧ le16 (-2464) = [0x60, 0xF6] := by decide +kernel

/-! ### Sink (K1 to K10) -/

theorem test_K1 : exec .consumed (bound small) = .next (bound small) := by rfl
theorem test_K2 : exec .start (bound small) = .next running := by rfl
/-- K3 with every channel silent. -/
theorem test_K3 : after .consumed running (fun t => (t.queue, t.cur, t.n, t.pcmOut))
    = some ([1, 0], 1, 8, List.replicate 3 (List.replicate 16 0)) := by decide +kernel
/-- P1, pass 2: `n` from 8 on, pulse-1 with period 32, into the buffer at `cur`. -/
theorem test_P1_pass2 : after .consumed { running with reg := pulse32.reg, timer := pulse32.timer, n := 8, cur := 1 }
    (fun t => (t.buf, t.cur, t.n, t.queue, t.timer))
    = some ([List.replicate 16 0, [0x60, 0xF6, 0x60, 0xF6, 0x60, 0xF6, 0x60, 0xF6, 0x60, 0xF6, 0x60, 0xF6,
        0xA0, 0x09, 0xA0, 0x09]], 0, 16, [1, 1], #v[1, 0, 0, 0, 0]) := by decide +kernel
theorem test_K6 : exec .stop running = .next { running with queue := [], sink := .stopped } := by rfl
theorem test_K8 : exec .start running = .refused (.startOutsideIdle .running) := by rfl
theorem test_K10 : exec .stop (bound small) = .next (bound small) := by rfl
theorem test_F2 : exec .reset { faulted with reg := pulse32.reg, timer := pulse32.timer, n := 3, cur := 1 }
    = .next (State.resetWith small) := by rfl

/-! ### The standard configuration and the invariant hold somewhere -/

theorem bound_standardTables (c : Config) : StandardTables (bound c) := fun _ => ⟨rfl, rfl⟩

theorem bound_standard : Standard (bound small) := ⟨rfl, rfl, bound_standardTables small⟩

theorem small_inv : Inv (State.resetWith small) where
  cfg := by decide
  rdh := by decide
  wrh := by decide
  bufCount := by decide
  bufBytes := by decide
  scratchBytes := by decide
  pcmBytes := by decide
  cur := by decide
  queueRunning := by decide
  queueElse := by decide
  idle := by decide
  timers := by decide
  kept := by decide

theorem running_inv : Inv running where
  cfg := by decide
  rdh := by decide
  wrh := by decide
  bufCount := by decide
  bufBytes := by decide
  scratchBytes := by decide
  pcmBytes := by decide
  cur := by decide
  queueRunning := by decide
  queueElse := by decide
  idle := by decide
  timers := by decide
  kept := by decide

/-- `bound small` under `LatestPublished`, running. -/
def runningLatest : State := { running with cfg := { small with snapshotMode := .latestPublished } }

/-- `Apu` one slot beyond the register file, in both tables (B9). -/
def wide : State := { State.resetWith small with rdh := ⟨[⟨0x3FFF, 0x4018, .apu⟩]⟩, wrh := ⟨[⟨0x3FFF, 0x4018, .apu⟩]⟩ }

/-- An outside device at one slot of both tables (B13). -/
def outside : State :=
  { State.resetWith small with rdh := ⟨[⟨0x8000, 0x8000, .ext 7⟩]⟩, wrh := ⟨[⟨0x8000, 0x8000, .ext 7⟩]⟩ }

/-! ### Witnesses: each meets every hypothesis of the obligation it is named after -/

theorem witness_DecodeOfEncode : (Instr.mapw 0xFFFF 0 (.ext 0xFFFF)).wf 0xFFFF = true
    ∧ (Instr.busw 0x3FFF 0xFF).wf 0xFFFF = true ∧ (Instr.busr 0x4018).wf 0xFFFF = true
    ∧ (Instr.wr17 0xF 0xFF).wf 0xFFFF = true := by decide
theorem witness_EncodeOfDecode : decode 0xFFFF (.c 0x900FFFF0FFFFFFFF) = .ok (.mapw 0xFFFF 0xFFFF (.ext 0xFFFF))
    ∧ decode 0xFFFF (.t 0x1F4017FF) = .ok (.wr17 0xF 0xFF) := by decide
theorem witness_IllFormedWordsAreRefused : ({ bound small with trace := [.t 0] } : State).trace = .t 0 :: []
    ∧ decode (bound small).cfg.busMask (.t 0) = .error (.reservedKind 0) := by decide
theorem witness_LengthByTopNibble :
    (1 ≤ (0x10000000 : BitVec 32).toNat / 2 ^ 28 ∧ (0x10000000 : BitVec 32).toNat / 2 ^ 28 ≤ 7)
    ∧ (1 ≤ (0x7FFFFFFF : BitVec 32).toNat / 2 ^ 28 ∧ (0x7FFFFFFF : BitVec 32).toNat / 2 ^ 28 ≤ 7)
    ∧ (0x8000000000000000 : BitVec 64).toNat / 2 ^ 60 = 8 ∧ (0x9FFFFFFFFFFFFFFF : BitVec 64).toNat / 2 ^ 60 = 9
    ∧ (0x0 : Nibble).toNat = 0 ∧ 0xA ≤ (0xA : Nibble).toNat ∧ 0xA ≤ (0xF : Nibble).toNat := by decide
theorem witness_StepPerformsTheNextWord_next :
    decode (bound small).cfg.busMask (.t 0x30000000) = .ok .tick
    ∧ exec .tick { bound small with trace := [], pos := 1 } = .next { bound small with trace := [], pos := 1 } := by
  and_intros <;> first | decide | rfl
theorem witness_StepPerformsTheNextWord_refused : decode running.cfg.busMask (.t 0x50000000) = .ok .start
    ∧ exec .start { running with trace := [], pos := 1 } = .refused (.startOutsideIdle .running) := by
  and_intros <;> first | decide | rfl
theorem witness_StepPerformsTheNextWord_fault : decode faulted.cfg.busMask (.t 0x30000000) = .ok .tick
    ∧ exec .tick { faulted with trace := [], pos := 1 } = .fault (.stuck (.unmappedRead 0x2002)) := by
  and_intros <;> first | decide | rfl
theorem witness_StepPerformsTheNextWord_waits : (bound small).trace = [] := by decide
theorem witness_UnmappedReadRaises : (Instr.rd15 1).operation = .busr 0x14015 ∧ (State.resetWith small).fault = none
    ∧ (State.resetWith small).rdh.lookup (slotOf (State.resetWith small) 0x14015) = .default
    ∧ after (.rd15 1) (State.resetWith small) (·.fault) = some (some (.unmappedRead 0x4015)) := by decide
theorem witness_RegisterIndexOutOfRangeRaises_read : (Instr.busr 0x4018).operation = .busr 0x4018 ∧ wide.fault = none
    ∧ wide.rdh.lookup (slotOf wide 0x4018) = .apu ∧ ¬(0x4000 ≤ slotOf wide 0x4018 ∧ slotOf wide 0x4018 ≤ 0x4017)
    ∧ after (.busr 0x4018) wide (·.fault) = some (some (.regIndexOutOfRange 0x4018)) := by decide
theorem witness_RegisterIndexOutOfRangeRaises_write : (Instr.busw 0x3FFF 1).operation = .busw 0x3FFF 1
    ∧ wide.wrh.lookup (slotOf wide 0x3FFF) = .apu ∧ ¬(0x4000 ≤ slotOf wide 0x3FFF ∧ slotOf wide 0x3FFF ≤ 0x4017)
    ∧ after (.busw 0x3FFF 1) wide (·.fault) = some (some (.regIndexOutOfRange 0x3FFF)) := by decide
theorem witness_ReadReturnsTheStoredByte : (Instr.rd17 0xF).operation = .busr 0xF4017
    ∧ ReadReaches (bound small) 0xF4017 0x17 ∧ ReadReaches (bound small) 0x4000 0 := by
  unfold ReadReaches; decide
/-- With a 15-bit mask `BUSR $C000` reaches register 0. -/
theorem witness_ReadReturnsTheStoredByte_busr : (Instr.busr 0xC000).operation = .busr 0xC000
    ∧ ReadReaches (bound { small with busWidth := 15 }) 0xC000 0 := by unfold ReadReaches; decide
theorem witness_ExternalSlotAccess : (Instr.busw 0x8000 1).operation = .busw 0x8000 1
    ∧ (Instr.busr 0x8000).operation = .busr 0x8000 ∧ outside.fault = none
    ∧ outside.wrh.lookup (slotOf outside 0x8000) = .ext 7 ∧ outside.rdh.lookup (slotOf outside 0x8000) = .ext 7 := by
  decide
theorem witness_UnmappedWriteIsDiscarded : (Instr.busw 0x4018 1).operation = .busw 0x4018 1
    ∧ (bound small).fault = none ∧ (bound small).wrh.lookup (slotOf (bound small) 0x4018) = .default := by decide
theorem witness_AddressesAliasModuloTheMask : (Instr.wr03 0 8).operation = .busw 0x4003 8
    ∧ (Instr.wr03 0xF 8).operation = .busw 0xF4003 8 ∧ (Instr.rd03 0).operation = .busr 0x4003
    ∧ (Instr.rd03 1).operation = .busr 0x14003
    ∧ (0x4003 : BusAddr).toNat % 2 ^ small.busWidth = (0xF4003 : BusAddr).toNat % 2 ^ small.busWidth := by decide
theorem witness_MapReadSetsTheRange : (bound small).fault = none
    ∧ (bound small).rdh.wf (bound small).cfg.busMask = true ∧ (Target.ext 2).wf = true
    ∧ 0xFFFF < (0x10000 : BusAddr).toNat := by decide
theorem witness_MapWriteSetsTheRange : (bound small).fault = none
    ∧ (bound small).wrh.wf (bound small).cfg.busMask = true ∧ (Target.ext 0xFFFF).wf = true
    ∧ 0xFFFF < (0xFFFFF : BusAddr).toNat := by decide
theorem witness_CanonicalTablesAreDeterminedByTheirSlots : wide.rdh.wf 0xFFFF = true
    ∧ ∀ a, wide.rdh.lookup a = (wide.rdh.setRange 0x4000 0x4000 .apu).lookup a := ⟨by decide, fun _ => rfl⟩
theorem witness_WriteStoresAndReloads : (Instr.wr17 0xF 1).operation = .busw 0xF4017 1
    ∧ WriteReaches (bound small) 0xF4017 0x17 ∧ WriteReaches (bound small) 0x4000 0 := by
  unfold WriteReaches; decide
theorem witness_WriteStoresAndReloads_busw : (Instr.busw 0xC003 1).operation = .busw 0xC003 1
    ∧ WriteReaches (bound { small with busWidth := 15 }) 0xC003 3 := by unfold WriteReaches; decide
theorem witness_RowsReachTheirRegisters : Standard (bound small) := bound_standard
theorem witness_ControlWritesSetTheHaltBit : Standard (bound small) := bound_standard
theorem witness_PeriodLowWritesSetTheLowByte : Standard (bound small) := bound_standard
theorem witness_PeriodHighWritesReload : Standard (bound small) := bound_standard
theorem witness_TriangleControlWriteLoadsAndHalts : Standard (bound small) := bound_standard
theorem witness_EnableWriteStoresOnly : Standard (bound small) := bound_standard
theorem witness_WritesWithoutRoleStoreOnly : Standard (bound small)
    ∧ (0x17 : Fin 24).val ∈ [0x01, 0x05, 0x09, 0x0D, 0x0E, 0x10, 0x11, 0x12, 0x13, 0x14, 0x16, 0x17] :=
  ⟨bound_standard, by decide⟩
theorem witness_RegistersChangeOnlyByWrites : (Instr.wr17 0 1).operation = .busw 0x4017 1
    ∧ WriteReaches (bound small) 0x4017 0x17
    ∧ after (.wr17 0 1) (bound small) (fun t => t.reg[(0x17 : Fin 24)] ≠ (bound small).reg[(0x17 : Fin 24)]) = some True := by
  unfold WriteReaches
  exact ⟨by decide, by decide, congrArg some (eq_true (by decide))⟩
/-- Write, then TICK and another write, then read. -/
theorem witness_RegisterRoundTrip :
    (Instr.wr17 0 1).operation = .busw 0x4017 1 ∧ WriteReaches (bound small) 0x4017 0x17
    ∧ exec (.wr17 0 1) (bound small) = .next (withTimers small [(0x17, 1)] (Vector.replicate 5 0))
    ∧ (Instr.wr16 0 2).operation = .busw 0x4016 2 ∧ slotOf (bound small) 0x4016 ≠ 0x4000 + (0x17 : Fin 24).val
    ∧ performAll [.tick, .wr16 0 2] (withTimers small [(0x17, 1)] (Vector.replicate 5 0))
      = .next (withTimers small [(0x17, 1), (0x16, 2)] (Vector.replicate 5 0))
    ∧ (Instr.rd17 0).operation = .busr 0x4017
    ∧ ReadReaches (withTimers small [(0x17, 1), (0x16, 2)] (Vector.replicate 5 0)) 0x4017 0x17 := by
  unfold WriteReaches ReadReaches
  refine ⟨by decide, by decide, exec_of_after (by decide), by decide, by decide, ?_, by decide, by decide⟩
  rw [performAll, exec_of_after (t := withTimers small [(0x17, 1)] (Vector.replicate 5 0)) (by decide)]
  show performAll [.wr16 0 2] _ = _
  rw [performAll, exec_of_after (t := withTimers small [(0x17, 1), (0x16, 2)] (Vector.replicate 5 0)) (by decide)]
  rfl
theorem witness_TickCountsUngatedSlots : (withTimers small [(0, 0x20)] #v[3, 0, 2, 1, 2]).fault = none := by decide
/-- Slot 0 halted, slot 2 counting, slot 1 at zero. -/
theorem witness_TickLaws : exec .tick (withTimers small [(0, 0x20)] #v[3, 0, 2, 1, 2])
      = .next (withTimers small [(0, 0x20)] #v[3, 0, 1, 0, 1])
    ∧ small.tickPolicy = .gated ∧ haltBit (withTimers small [(0, 0x20)] #v[3, 0, 2, 1, 2]).reg 0 = true
    ∧ haltBit (withTimers small [(0, 0x20)] #v[3, 0, 2, 1, 2]).reg 2 = false
    ∧ exec .tick (withTimers { small with tickPolicy := .unconditional } [(0, 0x20)] #v[3, 0, 2, 1, 2])
      = .next (withTimers { small with tickPolicy := .unconditional } [(0, 0x20)] #v[2, 0, 1, 0, 1]) := by
  and_intros <;> first | decide | rfl
theorem witness_HaltedSlotHoldsItsValue : (withTimers small [(8, 0x80)] #v[0, 0, 0, 0, 1]).fault = none
    ∧ small.tickPolicy = .gated ∧ haltBit (withTimers small [(8, 0x80)] #v[0, 0, 0, 0, 1]).reg 4 = true := by decide
theorem witness_TimersChangeOnlyByTickReloadReset :
    after .tick (withTimers small [] #v[1, 0, 0, 0, 0]) (·.timer) = some #v[0, 0, 0, 0, 0]
    ∧ after (.wr08 0 0x7F) (bound small) (·.timer) = some #v[0, 0, 0, 0, 508]
    ∧ after .reset (withTimers small [] #v[1, 0, 0, 0, 0]) (·.timer) = some #v[0, 0, 0, 0, 0] := by decide
theorem witness_TriangleWaveShape : (0 : Rat) ≤ 1 / 4 ∧ (1 / 4 : Rat) < 1 ∧ (0 : Rat) ≤ 3 / 4 ∧ (3 / 4 : Rat) < 1 := by
  decide +kernel
theorem witness_TriangleWaveShape_pieces : (0 : Rat) < 1 / 4 ∧ (1 / 4 : Rat) ≤ 1 / 4 ∧ (1 / 4 : Rat) < 3 / 4
    ∧ (3 / 4 : Rat) ≤ 3 / 4 := by decide +kernel
theorem witness_SquareWaveShape : (0 : Rat) ≤ 0 ∧ (0 : Rat) < 1 / 2 ∧ (1 / 2 : Rat) ≤ 1 / 2 ∧ (1 / 2 : Rat) < 1 := by
  decide +kernel
theorem witness_FixedGainMix : (-1 : Rat) ≤ -1 ∧ (-1 : Rat) ≤ 1 := by decide +kernel
theorem witness_ArithmeticMeanMix : (-1 : Rat) ≤ 1 ∧ (1 : Rat) ≤ 1
    ∧ active (bound small).snapshot .pulse1 = false ∧ active (bound small).snapshot .pulse2 = false
    ∧ active (bound small).snapshot .triangle = false ∧ active (bound small).snapshot .noise = false := by
  decide +kernel
theorem witness_ClippingIsNeverReached : small.pcmScale = 32767 ∧ (-1 : Rat) ≤ 1 ∧ (1 : Rat) ≤ 1 := by decide +kernel
theorem witness_SampleIsTruncatedTowardZero :
    (32767 : Rat) ≤ 1 * (32767 : Nat) ∧ (-1 : Rat) * (32768 : Nat) ≤ -32768
    ∧ (0 : Rat) ≤ 1 / 3 ∧ (1 / 3 : Rat) * (32767 : Nat) < 32768
    ∧ (-(1 / 3) : Rat) ≤ 0 ∧ (-32769 : Rat) < -(1 / 3) * (32767 : Nat) := by decide +kernel
theorem witness_SampleBytesLowFirst : 511 < 512 := by decide
theorem witness_PassShape : ∀ ch, active (bound small).snapshot ch = false := by
  intro ch; cases ch <;> decide
/-- Two snapshots that differ in registers and timers the synthesizer does not read. -/
theorem witness_SynthesizerReadsOnlyItsInputs :
    pulse32 ≠ snapOf [(0x15, 1), (2, 0x20), (0, 0x20)] #v[9, 0, 0, 0, 0]
    ∧ pulse32.reg[0x02] = (snapOf [(0x15, 1), (2, 0x20), (0, 0x20)] #v[9, 0, 0, 0, 0]).reg[0x02]
    ∧ pulse32.reg[0x03] = (snapOf [(0x15, 1), (2, 0x20), (0, 0x20)] #v[9, 0, 0, 0, 0]).reg[0x03]
    ∧ pulse32.reg[0x06] = (snapOf [(0x15, 1), (2, 0x20), (0, 0x20)] #v[9, 0, 0, 0, 0]).reg[0x06]
    ∧ pulse32.reg[0x07] = (snapOf [(0x15, 1), (2, 0x20), (0, 0x20)] #v[9, 0, 0, 0, 0]).reg[0x07]
    ∧ pulse32.reg[0x0A] = (snapOf [(0x15, 1), (2, 0x20), (0, 0x20)] #v[9, 0, 0, 0, 0]).reg[0x0A]
    ∧ pulse32.reg[0x0B] = (snapOf [(0x15, 1), (2, 0x20), (0, 0x20)] #v[9, 0, 0, 0, 0]).reg[0x0B]
    ∧ pulse32.reg[0x15] = (snapOf [(0x15, 1), (2, 0x20), (0, 0x20)] #v[9, 0, 0, 0, 0]).reg[0x15]
    ∧ ∀ k : Fin 5, pulse32.timer[k] = 0 ↔ (snapOf [(0x15, 1), (2, 0x20), (0, 0x20)] #v[9, 0, 0, 0, 0]).timer[k] = 0 := by
  decide
theorem witness_StartSubmitsSilence : (bound small).fault = none ∧ (bound small).sink = .idle
    ∧ (bound small).buf.length = (bound small).cfg.buffers := by decide
theorem witness_StartOutsideIdleIsRefused : running.fault = none ∧ running.sink ≠ .idle := by decide
theorem witness_ConsumedRefillsAndResubmits : running.fault = none ∧ running.sink = .running
    ∧ running.cur < running.buf.length ∧ running.cfg.snapshotMode = .atRefill := by decide
theorem witness_ConsumedUnderLatestPublished : runningLatest.fault = none ∧ runningLatest.sink = .running
    ∧ runningLatest.cur < runningLatest.buf.length ∧ runningLatest.cfg.snapshotMode = .latestPublished := by decide
/-- TICK keeps the snapshot before it; a CONSUMED of a stopped sink, and RESET, keep none. -/
theorem witness_SnapshotsSinceTheLastConsumedStayReadable : runningLatest.cfg.snapshotMode = .latestPublished
    ∧ exec .tick runningLatest = .next { runningLatest with published := [⟨runningLatest.reg, runningLatest.timer⟩] }
    ∧ Instr.tick ≠ .reset ∧ Instr.tick ≠ .consumed
    ∧ exec .consumed { runningLatest with sink := .stopped, published := [pulse32] }
      = .next { runningLatest with sink := .stopped }
    ∧ exec .reset { runningLatest with published := [pulse32] } = .next (State.resetWith runningLatest.cfg) := by
  and_intros <;> first | decide | rfl
theorem witness_ConsumedOutsideRunningHasNoEffect : (bound small).fault = none ∧ (bound small).sink ≠ .running
    ∧ (bound small).published = [] := by
  decide
theorem witness_StopEndsTheStream : running.fault = none ∧ running.sink = .running ∧ (bound small).sink ≠ .running := by
  decide
theorem witness_OutputStreamIsGapless : Inv (State.resetWith small) ∧ (State.resetWith small).fault = none
    ∧ (State.resetWith small).sink = .idle ∧ (State.resetWith small).cfg.snapshotMode = .atRefill :=
  ⟨small_inv, by decide⟩
theorem witness_OutputOnlyGrows : exec .start (bound small) = .next running ∧ Instr.start ≠ .reset := by
  and_intros <;> first | decide | rfl
theorem witness_CounterAdvancesOnlyBySynthesis : after .consumed running (·.n) = some 8
    ∧ after .reset running (·.n) = some 0 ∧ Instr.consumed ≠ .reset := by decide
theorem witness_FaultedBlockAcceptsOnlyReset : faulted.fault = some (.unmappedRead 0x2002) ∧ Instr.tick ≠ .reset := by
  decide
theorem witness_FaultsArePrecise : (bound small).fault = none
    ∧ exec (.busr 0x2002) (bound small) = .next faulted ∧ faulted.fault = some (.unmappedRead 0x2002) := by
  and_intros <;> first | decide | rfl
theorem witness_ResetLeavesTheOutsideAlone : exec .reset running = .next (State.resetWith small) := by rfl
theorem witness_ParametersNeverChange : step running = .next running := by rfl
theorem witness_InvariantAtReset : small.wf = true := by decide
theorem witness_InvariantIsKept : Inv { running with trace := [.t 0x60000000] }
    ∧ step { running with trace := [.t 0x60000000] }
      = .next { running with queue := [], sink := .stopped, pos := 1 } :=
  ⟨{ running_inv with }, rfl⟩

end Sys2Proof.Tests
end

section
/-! PROOF. What RESET does to the model's record of what lies outside the block. -/

namespace Sys2Proof.Machine

/-- RESET has exactly one next state from any state, faulted ones included (R290, R263). -/
theorem exec_reset_next_iff {s t : State} : exec .reset s = .next t ↔ t = resetBlock s := by
  constructor
  · intro h
    have heff : Effect s .reset t := exec_effect h
    cases heff with
    | reset => rfl
  · rintro rfl
    rfl

/-- Settles O53: RESET's only next state is `resetBlock`, and its field lemmas say what it keeps and forgets. -/
theorem resetLeavesTheOutsideAlone : Obligations.ResetLeavesTheOutsideAlone := by
  intro s t h
  obtain rfl := exec_reset_next_iff.mp h
  exact ⟨resetBlock_replies s, resetBlock_draws s, resetBlock_trace s, resetBlock_pos s, resetBlock_published s⟩

end Sys2Proof.Machine
end

section
/-! PROOF. What a step can do (00_scope.md R5, 30_encoding.md R100), and that the word it performs spells a well-formed
instruction. -/

namespace Sys2Proof

/-! ### What decodes is well-formed (R94, R99, R100) -/

theorem wrRow_wf (mask : Nat) (k : Fin 24) (hi : Nibble) (v : Byte) : (wrRow k hi v).wf mask = true := by
  fin_cases k <;> rfl

theorem rdRow_wf (mask : Nat) (k : Fin 24) (hi : Nibble) : (rdRow k hi).wf mask = true := by
  fin_cases k <;> rfl

theorem decodeBusw_wf (mask : Nat) (addr : BusAddr) (v : Byte) : (decodeBusw addr v).wf mask = true := by
  unfold decodeBusw
  split
  · exact wrRow_wf mask _ _ v
  · next h => simp [Instr.wf, isRegRow_eq, h]

theorem decodeBusr_wf (mask : Nat) (addr : BusAddr) : (decodeBusr addr).wf mask = true := by
  unfold decodeBusr
  split
  · exact rdRow_wf mask _ _
  · next h => simp [Instr.wf, isRegRow_eq, h]

theorem decodeBare_eq_ok {addr : BusAddr} {v : Byte} {i j : Instr} (h : decodeBare addr v i = .ok j) : j = i := by
  unfold decodeBare at h
  split_ifs at h
  cases h
  rfl

/-- A range that decodes has both ends within the mask and a legal target (R94, R100). -/
theorem decodeRange_eq_ok {mask : Nat} {w : BitVec 64} {mk : BusAddr → BusAddr → Target → Instr} {i : Instr}
    (h : decodeRange mask w mk = .ok i) :
    ∃ first last target, i = mk first last target ∧ first.toNat ≤ mask ∧ last.toNat ≤ mask ∧ target.wf = true := by
  unfold decodeRange at h
  split_ifs at h with _ hfirst hlast
  cases h
  exact ⟨_, _, _, rfl, not_lt.mp hfirst, not_lt.mp hlast, (code_decodeTarget _).2⟩

theorem decodeT_wf {w : BitVec 32} {i : Instr} (mask : Nat) (h : decodeT w = .ok i) : i.wf mask = true := by
  unfold decodeT at h
  dsimp only at h
  split_ifs at h
  · cases h; exact decodeBusw_wf mask _ _
  · cases h; exact decodeBusr_wf mask _
  all_goals rw [decodeBare_eq_ok h]; rfl

theorem decodeC_wf {mask : Nat} {w : BitVec 64} {i : Instr} (h : decodeC mask w = .ok i) : i.wf mask = true := by
  unfold decodeC at h
  dsimp only at h
  split_ifs at h
  all_goals
    obtain ⟨first, last, target, rfl, hfirst, hlast, ht⟩ := decodeRange_eq_ok h
    simp [Instr.wf, hfirst, hlast, ht]

theorem decode_wf {mask : Nat} {w : TransWord} {i : Instr} (h : decode mask w = .ok i) : i.wf mask = true := by
  cases w with
  | t w => exact decodeT_wf mask h
  | c w => exact decodeC_wf h

end Sys2Proof

namespace Sys2Proof.Machine

/-! ### The inversion of `step` -/

/-- A step waits with no word presented (R292), performs the word it takes, or drops it because a fault is recorded
(R263, log 9). -/
theorem step_next {s t : State} (h : step s = .next t) :
    (s.trace = [] ∧ t = s) ∨
    ∃ w rest i, s.trace = w :: rest ∧ decode s.cfg.busMask w = .ok i ∧
      (exec i (takeWord rest s) = .next t ∨ t = takeWord rest s ∧ ∃ f, exec i (takeWord rest s) = .fault f) := by
  unfold step runNext at h
  split at h
  · next htrace => cases h; exact .inl ⟨htrace, rfl⟩
  · next w rest htrace =>
    split at h
    · next i hdecode =>
      refine .inr ⟨w, rest, i, htrace, hdecode, ?_⟩
      unfold present at h
      split at h
      · next hexec => exact .inl (hexec.trans h)
      · next hexec => cases h; exact .inr ⟨rfl, _, hexec⟩
      · cases h
    · cases h

/-- What taking a word keeps, and every completing well-formed instruction keeps, every step keeps. -/
theorem step_keeps {P : State → Prop} (take : ∀ rest s, P s → P (takeWord rest s))
    (perform : ∀ i s t, i.wf s.cfg.busMask = true → exec i s = .next t → P s → P t)
    {s t : State} (hstep : step s = .next t) (hs : P s) : P t := by
  obtain ⟨-, rfl⟩ | ⟨w, rest, i, -, hdecode, hexec | ⟨rfl, -⟩⟩ := step_next hstep
  · exact hs
  · exact perform i (takeWord rest s) t (decode_wf hdecode) hexec (take rest s hs)
  · exact take rest s hs

/-- Settles O55: taking a word leaves the parameters, and so does every instruction (`exec_cfg`). -/
theorem parametersNeverChange : Obligations.ParametersNeverChange := by
  intro s t h
  exact step_keeps (P := fun x => x.cfg = s.cfg) (fun _ _ hx => hx) (fun _ _ _ _ hexec hx => (exec_cfg hexec).trans hx)
    h rfl

end Sys2Proof.Machine
end

section
/-! PROOF. The state after reset (10_state.md R51) and the invariant there. -/

namespace Sys2Proof.Machine

@[simp] theorem resetWith_reg_get (c : Config) (k : Fin 24) : (State.resetWith c).reg[k] = 0 :=
  Vector.getElem_replicate k.isLt

@[simp] theorem resetWith_timer_get (c : Config) (k : Fin 5) : (State.resetWith c).timer[k] = 0 :=
  Vector.getElem_replicate k.isLt

/-- Silence of the configured size, in bytes (R42, R51). -/
theorem silence_eq (c : Config) : silence c = List.replicate (2 * c.bufferSamples) 0 :=
  List.eq_replicate_iff.mpr ⟨silence_length c, fun _ => List.eq_of_mem_replicate⟩

/-- Settles O54: `resetWith` field by field; the buffers are silence of the configured size. -/
theorem resetValues : Obligations.ResetValues :=
  ⟨resetWith_reg_get _, resetWith_timer_get _, rfl, rfl, rfl, congrArg (List.replicate _) (silence_eq _), silence_eq _,
    fun _ => ⟨rfl, rfl⟩, rfl, rfl, rfl⟩

theorem one_lt_buffers_of_wf {c : Config} (h : c.wf = true) : 1 < c.buffers := by
  simp only [Config.wf, Bool.and_eq_true, decide_eq_true_eq] at h
  omega

/-- The invariant holds after reset under every legal configuration. -/
theorem resetWith_inv {c : Config} (h : c.wf = true) : Inv (State.resetWith c) where
  cfg := h
  rdh := empty_wf _
  wrh := empty_wf _
  bufCount := List.length_replicate
  bufBytes := fun b hb => by rw [List.eq_of_mem_replicate hb, silence_length]; rfl
  scratchBytes := silence_length c
  pcmBytes := fun _ hb => absurd hb List.not_mem_nil
  cur := Nat.zero_lt_of_lt (one_lt_buffers_of_wf h)
  queueRunning := fun hs => nomatch hs
  queueElse := fun _ => rfl
  idle := fun _ => ⟨rfl, rfl⟩
  timers := fun k => by rw [resetWith_timer_get]; exact Nat.zero_le _
  kept := fun _ => rfl

/-- The defaults of R7 are legal, whatever `SCALE` is. -/
theorem default_wf : Config.default.wf = true := by
  simp [Config.wf, Config.default, Config.defaultTable]

/-- Settles O56: `resetWith_inv`, and the default parameters are legal. -/
theorem invariantAtReset : Obligations.InvariantAtReset :=
  ⟨fun _ => resetWith_inv, resetWith_inv default_wf⟩

end Sys2Proof.Machine
end

section
/-! PROOF. Every step keeps the invariant (10_state.md R39, R42, R46, 44_audio_sink.md R244). -/

namespace Sys2Proof.Machine

/-! ### The timer bounds (R39) -/

theorem table_getD_le_maxTable (c : Config) (j : Nat) : c.table.toList.getD j 0 ≤ maxTable c := by
  rw [List.getD_eq_getElem?_getD]
  cases h : c.table.toList[j]? with
  | none => exact Nat.zero_le _
  | some x => exact List.le_max_of_le' 0 (List.mem_of_getElem? h) le_rfl

/-- Every load is within the bound of its slot (R39). -/
theorem loadValue_le_timerBound (c : Config) (k : Fin 5) (v : Byte) : loadValue c k v ≤ timerBound c k := by
  unfold loadValue timerBound
  split
  · exact Nat.mul_le_mul_right _ (by omega)
  · exact Nat.mul_le_mul_right _ (table_getD_le_maxTable c _)

/-- `AtRefill` keeps no snapshot (R81, D16). -/
theorem Inv.keptAfter {s : State} (h : Inv s) (hm : s.cfg.snapshotMode = .atRefill) : keptAfter s = [] := by
  simp [Machine.keptAfter, hm, h.kept hm]

/-! ### Effects that change registers or timers -/

theorem Inv.writeRegister {s : State} (h : Inv s) (k : Fin 24) (v : Byte) : Inv (writeRegister k v s) := by
  have htimers : ∀ c : Fin 5, (Machine.writeRegister k v s).timer[c] ≤ timerBound s.cfg c := by
    intro c
    rw [writeRegister_timer_get]
    split
    · exact loadValue_le_timerBound _ _ _
    · exact h.timers c
  rw [writeRegister_frame]
  exact { h with timers := htimers, kept := h.keptAfter }

theorem Inv.tick {s : State} (h : Inv s) :
    Inv { publish s with timer := tickTimers s.cfg.tickPolicy s.reg s.timer } := by
  have htimers : ∀ c : Fin 5, (tickTimers s.cfg.tickPolicy s.reg s.timer)[c] ≤ timerBound s.cfg c := by
    intro c
    rw [tickTimers_get]
    exact (tickSlot_le _ _ _ c).trans (h.timers c)
  rw [publish_eq]
  exact { h with timers := htimers, kept := h.keptAfter }

/-! ### Effects of the sink -/

@[simp] theorem nextPass_length (s : State) : (nextPass s).length = 2 * s.cfg.bufferSamples := passBytes_length _ _ _ _

/-- START submits K silent buffers, in the order of the rotation at 0 (R240, R244). -/
theorem Inv.begin {s : State} (h : Inv s) (hidle : s.sink = .idle) : Inv (begin s) := by
  have hempty : s.queue = [] := h.queueElse (by simp [hidle])
  have hsilent : ∀ b ∈ List.replicate s.cfg.buffers (silence s.cfg), b.length = 2 * s.cfg.bufferSamples := by
    intro b hb
    rw [List.eq_of_mem_replicate hb, silence_length]
  rw [begin_eq s h.bufCount]
  exact { h with
    bufCount := List.length_replicate
    bufBytes := hsilent
    pcmBytes := fun b hb => (List.mem_append.mp hb).elim (h.pcmBytes b) (hsilent b)
    cur := Nat.zero_lt_of_lt (one_lt_buffers_of_wf h.cfg)
    queueRunning := fun _ => by simp [hempty, rotation_zero]
    queueElse := fun hs => absurd rfl hs
    idle := fun hs => nomatch hs }

/-- CONSUMED in `Running` submits one pass and turns the rotation by one (R243, R244). -/
theorem Inv.refill {s : State} (h : Inv s) (hrun : s.sink = .running) : Inv (refill s) := by
  have hturn : s.queue.tail ++ [s.cur] = rotation s.cfg.buffers ((s.cur + 1) % s.cfg.buffers) := by
    rw [h.queueRunning hrun, rotation_turn h.cur]
  have hpass := nextPass_length s
  rw [refill_eq s (h.bufCount ▸ h.cur)]
  exact { h with
    bufCount := List.length_set.trans h.bufCount
    bufBytes := fun b hb => (List.mem_or_eq_of_mem_set hb).elim (h.bufBytes b) fun hb => hb ▸ hpass
    scratchBytes := hpass
    pcmBytes := fun b hb => (List.mem_append.mp hb).elim (h.pcmBytes b) fun hb => List.mem_singleton.mp hb ▸ hpass
    cur := Nat.mod_lt _ (Nat.zero_lt_of_lt h.cur)
    queueRunning := fun _ => hturn
    queueElse := fun hs => absurd hrun hs
    idle := fun hs => by simp [hrun] at hs
    kept := fun _ => rfl }

/-- STOP drops the queue (R245). -/
theorem Inv.stop {s : State} (h : Inv s) : Inv { s with queue := [], sink := .stopped } :=
  { h with
    queueRunning := fun hs => nomatch hs
    queueElse := fun _ => rfl
    idle := fun hs => nomatch hs }

/-! ### Handler registration -/

theorem eq_mapr {i : Instr} {first last : BusAddr} {target : Target} (h : i.operation = .mapr first last target) :
    i = .mapr first last target := by
  cases i <;> cases h
  rfl

theorem eq_mapw {i : Instr} {first last : BusAddr} {target : Target} (h : i.operation = .mapw first last target) :
    i = .mapw first last target := by
  cases i <;> cases h
  rfl

theorem range_of_wf {mask : Nat} {i : Instr} {first last : BusAddr} {target : Target} (hwf : i.wf mask = true)
    (h : i.operation = .mapr first last target ∨ i.operation = .mapw first last target) :
    last.toNat ≤ mask ∧ target.wf = true := by
  have hmapr : (Instr.mapr first last target).wf mask = true := by
    obtain h | h := h
    · rwa [← eq_mapr h]
    · rwa [eq_mapw h] at hwf
  simp only [Instr.wf, Bool.and_eq_true, decide_eq_true_eq] at hmapr
  obtain ⟨⟨-, hlast⟩, ht⟩ := hmapr
  exact ⟨hlast, ht⟩

/-! ### The step -/

theorem Inv.effect {s t : State} {i : Instr} (h : Inv s) (hwf : i.wf s.cfg.busMask = true)
    (heff : Effect s i.operation t) : Inv t := by
  generalize ho : i.operation = o at heff
  cases heff with
  | reset => exact { resetWith_inv h.cfg with }
  | writeNothing => exact h
  | writeRegister => exact h.writeRegister _ _
  | writeFault => exact { h with }
  | readRegister => exact { h with }
  | readExt => exact { h with }
  | readUnmapped => exact { h with }
  | readFault => exact { h with }
  | tick => exact h.tick
  | consumed _ hrun => exact h.refill hrun
  | consumedNothing => exact { h with kept := fun _ => rfl }
  | start _ hidle => exact h.begin hidle
  | stop => exact h.stop
  | stopNothing => exact h
  | mapr =>
    obtain ⟨hlast, ht⟩ := range_of_wf hwf (.inl ho)
    exact { h with rdh := setRange_wf h.rdh ht _ hlast }
  | mapw =>
    obtain ⟨hlast, ht⟩ := range_of_wf hwf (.inr ho)
    exact { h with wrh := setRange_wf h.wrh ht _ hlast }

/-- Settles O57: every effect of a well-formed instruction keeps the invariant, and a word that decodes is well-formed. -/
theorem invariantIsKept : Obligations.InvariantIsKept := by
  intro s t h hstep
  exact step_keeps (fun _ _ hx => { hx with }) (fun _ _ _ hwf hexec hx => hx.effect hwf (exec_effect hexec)) hstep h

end Sys2Proof.Machine
end

section
/-! PROOF. A canonical handler table is determined by its slots (10_state.md R46, log 8). -/

namespace Sys2Proof.Machine

theorem lookupRuns_eq_default {rs : List Run} {a : Nat} (h : ∀ r ∈ rs, a < r.lo) : lookupRuns rs a = .default := by
  induction rs with
  | nil => rfl
  | cons r rs ih =>
    have hr := h r (by simp)
    rw [lookupRuns, if_neg (by omega), ih fun q hq => h q (by simp [hq])]

theorem lookupRuns_head {r : Run} {rs : List Run} {a : Nat} (h : r.lo ≤ a ∧ a ≤ r.hi) :
    lookupRuns (r :: rs) a = r.target := if_pos h

theorem lookupRuns_tail {r : Run} {rs : List Run} {a : Nat} (h : r.hi < a) :
    lookupRuns (r :: rs) a = lookupRuns rs a := if_neg (by omega)

/-- Below its first run a list in order holds `Default`. -/
theorem lookupRuns_below_head {r : Run} {rs : List Run} (h : Rising (r :: rs)) {a : Nat} (ha : a < r.lo) :
    lookupRuns (r :: rs) a = .default := by
  obtain ⟨⟨hr, -, -⟩, ho, -⟩ := rising_cons.mp h
  refine lookupRuns_eq_default fun q hq => ?_
  rcases List.mem_cons.mp hq with rfl | hq
  · exact ha
  · have := ho q hq
    omega

/-- The slot after a run that is as long as it can be does not hold the run's target. -/
theorem lookupRuns_after_head {r : Run} {rs : List Run} (h : Rising (r :: rs)) (hm : Maximal (r :: rs)) :
    lookupRuns (r :: rs) (r.hi + 1) ≠ r.target := by
  obtain ⟨⟨-, hr, -⟩, ho, hrs⟩ := rising_cons.mp h
  rw [lookupRuns_tail (by omega)]
  cases rs with
  | nil => exact hr.symm
  | cons q qs =>
    have hq := ho q (by simp)
    obtain ⟨⟨hql, -, -⟩, -, -⟩ := rising_cons.mp hrs
    by_cases hlo : r.hi + 1 = q.lo
    · have hj : r.joins q = false := (List.isChain_cons_cons.mp hm).1
      rw [lookupRuns_head (by omega)]
      intro ht
      simp [Run.joins, hlo, ht] at hj
    · rw [lookupRuns_below_head hrs (by omega)]
      exact hr.symm

section Heads
variable {r q : Run} {rs qs : List Run}

/-- The first run starts at the first slot that does not hold `Default`. -/
theorem head_lo_le (hr : Rising (r :: rs)) (hq : Rising (q :: qs))
    (h : ∀ a, lookupRuns (r :: rs) a = lookupRuns (q :: qs) a) : q.lo ≤ r.lo := by
  by_contra hlt
  obtain ⟨⟨hrl, hrt, -⟩, -, -⟩ := rising_cons.mp hr
  have ha := h r.lo
  rw [lookupRuns_head ⟨le_rfl, hrl⟩, lookupRuns_below_head hq (by omega)] at ha
  exact hrt ha

/-- The first run ends before the first later slot that does not hold its target. -/
theorem head_hi_le (hr : Rising (r :: rs)) (hrm : Maximal (r :: rs)) (hlo : q.lo = r.lo) (ht : q.target = r.target)
    (h : ∀ a, lookupRuns (r :: rs) a = lookupRuns (q :: qs) a) : q.hi ≤ r.hi := by
  by_contra hlt
  obtain ⟨⟨hrl, -, -⟩, -, -⟩ := rising_cons.mp hr
  have ha := h (r.hi + 1)
  rw [lookupRuns_head (r := q) (by omega), ht] at ha
  exact lookupRuns_after_head hr hrm ha

theorem head_eq (hr : Rising (r :: rs)) (hrm : Maximal (r :: rs)) (hq : Rising (q :: qs)) (hqm : Maximal (q :: qs))
    (h : ∀ a, lookupRuns (r :: rs) a = lookupRuns (q :: qs) a) : r = q := by
  obtain ⟨⟨hrl, -, -⟩, -, -⟩ := rising_cons.mp hr
  obtain ⟨⟨hql, -, -⟩, -, -⟩ := rising_cons.mp hq
  have hlo : r.lo = q.lo := le_antisymm (head_lo_le hq hr fun a => (h a).symm) (head_lo_le hr hq h)
  have ht : r.target = q.target := by
    have ha := h r.lo
    rwa [lookupRuns_head (by omega), lookupRuns_head (by omega)] at ha
  have hhi : r.hi = q.hi :=
    le_antisymm (head_hi_le hq hqm hlo ht fun a => (h a).symm) (head_hi_le hr hrm hlo.symm ht.symm h)
  exact congr (congr (congrArg Run.mk hlo) hhi) ht

theorem tail_lookup_eq (hr : Rising (r :: rs)) (hq : Rising (r :: qs))
    (h : ∀ a, lookupRuns (r :: rs) a = lookupRuns (r :: qs) a) (a : Nat) : lookupRuns rs a = lookupRuns qs a := by
  obtain ⟨-, hro, -⟩ := rising_cons.mp hr
  obtain ⟨-, hqo, -⟩ := rising_cons.mp hq
  by_cases ha : a ≤ r.hi
  · rw [lookupRuns_eq_default fun x hx => ha.trans_lt (hro x hx),
      lookupRuns_eq_default fun x hx => ha.trans_lt (hqo x hx)]
  · have hlook := h a
    rwa [lookupRuns_tail (by omega), lookupRuns_tail (by omega)] at hlook

end Heads

/-- A nonempty list in order does not answer like the empty one. -/
theorem lookupRuns_cons_ne_nil {r : Run} {rs : List Run} (h : Rising (r :: rs)) :
    ¬ ∀ a, lookupRuns (r :: rs) a = lookupRuns [] a := by
  obtain ⟨⟨hrl, hrt, -⟩, -, -⟩ := rising_cons.mp h
  intro hlook
  have ha := hlook r.lo
  rw [lookupRuns_head ⟨le_rfl, hrl⟩] at ha
  exact hrt ha

/-- Two lists in canonical form that answer alike are equal: their first runs are, then their tails. -/
theorem runs_eq_of_lookup_eq {rs qs : List Run} (hr : Rising rs) (hrm : Maximal rs) (hq : Rising qs) (hqm : Maximal qs)
    (h : ∀ a, lookupRuns rs a = lookupRuns qs a) : rs = qs := by
  induction rs generalizing qs with
  | nil =>
    cases qs with
    | nil => rfl
    | cons q qs => exact absurd (fun a => (h a).symm) (lookupRuns_cons_ne_nil hq)
  | cons r rs ih =>
    cases qs with
    | nil => exact absurd h (lookupRuns_cons_ne_nil hr)
    | cons q qs =>
      obtain rfl := head_eq hr hrm hq hqm h
      obtain ⟨-, -, hrs⟩ := rising_cons.mp hr
      obtain ⟨-, -, hqs⟩ := rising_cons.mp hq
      rw [ih hrs hrm.tail hqs hqm.tail (tail_lookup_eq hr hq h)]

theorem HandlerTable.canonical_of_wf {mask : Nat} {t : HandlerTable} (h : t.wf mask = true) :
    Rising t.runs ∧ Maximal t.runs := by
  simp only [HandlerTable.wf, Bool.and_eq_true] at h
  exact (canonicalRuns_iff _).mp h.1

/-- Settles O15: the runs of both tables are canonical, and canonical runs that answer alike are equal. -/
theorem canonicalTablesAreDeterminedByTheirSlots : Obligations.CanonicalTablesAreDeterminedByTheirSlots := by
  intro mask t u ht hu h
  obtain ⟨htr, htm⟩ := HandlerTable.canonical_of_wf ht
  obtain ⟨hur, hum⟩ := HandlerTable.canonical_of_wf hu
  exact congrArg HandlerTable.mk (runs_eq_of_lookup_eq htr htm hur hum h)

end Sys2Proof.Machine
end

section
/-! PROOF. What operations leave of the registers, of `pcm_out` and of the sample counter (10_state.md R21, R37, R47). -/

namespace Sys2Proof.Machine

/-! ### The registers (R21) -/

/-- The register file changes only at RESET and by a write that reaches a register. -/
theorem Effect.reg_cases {s t : State} {o : Operation} (h : Effect s o t) :
    t.reg = s.reg ∨ o = .reset ∨ ∃ addr v k, o = .busw addr v ∧ WriteReaches s addr k ∧
      t = Machine.writeRegister k v s := by
  cases h with
  | reset => exact .inr (.inl rfl)
  | writeRegister hreach => exact .inr (.inr ⟨_, _, _, rfl, hreach, rfl⟩)
  | start => exact .inl (begin_reg s)
  | tick => exact .inl (by rw [publish_eq])
  | _ => exact .inl rfl

/-- Settles O24: a write that reaches a register stores the byte, and `Effect.reg_cases` gives the only changes. -/
theorem registersChangeOnlyByWrites : Obligations.RegistersChangeOnlyByWrites := by
  refine ⟨fun s i addr v k ho hreach => ⟨writeRegister k v s, ?_, ?_⟩, fun s t i k hexec hne => ?_⟩
  · rw [exec_eq, ho]
    exact busWrite_reaches hreach v
  · rw [writeRegister_reg_get, if_pos rfl]
  · obtain hreg | ho | ⟨addr, v, k', ho, hreach, rfl⟩ := (exec_effect hexec).reg_cases
    · exact absurd (by rw [hreg]) hne
    · exact .inl (eq_reset ho)
    · have hk : k = k' := by
        by_contra hk
        exact hne (by rw [writeRegister_reg_get, if_neg hk])
      subst hk
      exact .inr ⟨addr, v, ho, hreach, by rw [writeRegister_reg_get, if_pos rfl]⟩

/-! ### The output (R47) -/

theorem prefillFrom_pcmOut_prefix (count k : Nat) (s : State) : s.pcmOut <+: (prefillFrom count k s).pcmOut := by
  induction count generalizing k s with
  | zero => exact List.prefix_rfl
  | succ m ih => exact (List.prefix_append _ _).trans (ih (k + 1) (submit k (putBuf k (silence s.cfg) s)))

theorem Effect.pcmOut_prefix {s t : State} {o : Operation} (h : Effect s o t) (ho : o ≠ .reset) :
    s.pcmOut <+: t.pcmOut := by
  cases h with
  | reset => exact absurd rfl ho
  | writeRegister => rw [writeRegister_pcmOut]
  | tick => rw [publish_eq]
  | start => exact prefillFrom_pcmOut_prefix s.cfg.buffers 0 s
  | consumed => exact List.prefix_append _ _
  | _ => exact List.prefix_rfl

/-- Settles O48: START and CONSUMED append to `pcm_out`, every other operation but RESET leaves it. -/
theorem outputOnlyGrows : Obligations.OutputOnlyGrows := by
  intro s t i hexec hi
  obtain ⟨more, hmore⟩ := (exec_effect hexec).pcmOut_prefix (mt eq_reset hi)
  exact ⟨more, hmore.symm⟩

/-! ### The sample counter (R37, R221) -/

theorem Effect.n_eq {s t : State} {o : Operation} (h : Effect s o t) (ho : o ≠ .reset) :
    t.n = s.n + if o = .consumed ∧ s.sink = .running then s.cfg.bufferSamples else 0 := by
  cases h with
  | reset => exact absurd rfl ho
  | consumed _ hrun => simp [hrun]
  | consumedNothing _ hrun => simp [hrun]
  | tick => simp [publish_eq]
  | _ => simp

/-- Settles O49: `Effect.n_eq` for every operation but RESET; RESET's only next state has the counter at 0. -/
theorem counterAdvancesOnlyBySynthesis : Obligations.CounterAdvancesOnlyBySynthesis := by
  intro s t i hexec
  constructor
  · rintro rfl
    rw [exec_reset_next_iff.mp hexec, resetBlock_n]
  · intro hi
    have hconsumed : i.operation = .consumed ↔ i = .consumed := ⟨eq_consumed, fun h => h ▸ rfl⟩
    simp only [(exec_effect hexec).n_eq (mt eq_reset hi), hconsumed]

end Sys2Proof.Machine
end

section
/-! PROOF. Bus addresses that select one slot (20_memory.md R70), and the snapshots a pass may use under
`LatestPublished` (R81, log 5). -/

namespace Sys2Proof.Machine

/-! ### Accesses at one slot (R70) -/

/-- A write sees its address only through the slot it selects. -/
theorem busWrite_congr {s : State} {a b : BusAddr} (h : slotOf s a = slotOf s b) (v : Byte) :
    busWrite a v s = busWrite b v s := by
  have hslot : slot s.cfg a = slot s.cfg b := by rw [slot_eq, slot_eq, h]
  unfold busWrite
  rw [hslot]

/-- A read sees its address only through the slot it selects. -/
theorem busRead_congr {s : State} {a b : BusAddr} (h : slotOf s a = slotOf s b) : busRead a s = busRead b s := by
  have hslot : slot s.cfg a = slot s.cfg b := by rw [slot_eq, slot_eq, h]
  unfold busRead
  rw [hslot]

/-- Settles O12: every row is its bus access (`exec_eq`), and an access sees only the slot. -/
theorem addressesAliasModuloTheMask : Obligations.AddressesAliasModuloTheMask := by
  refine ⟨fun s i j a b v hi hj h => ?_, fun s i j a b hi hj h => ?_⟩
  · rw [exec_eq, exec_eq, hi, hj]
    exact busWrite_congr h v
  · rw [exec_eq, exec_eq, hi, hj]
    exact busRead_congr h

/-! ### A pass under `LatestPublished` (R81, R243) -/

theorem exec_consumed_running {s : State} (hf : s.fault = none) (hrun : s.sink = .running) :
    exec .consumed s = .next (refill s) := by
  show execConsumed s = _
  unfold execConsumed
  rw [accept_clear hf, hrun]

theorem passDraws_latestPublished {s : State} (h : s.cfg.snapshotMode = .latestPublished) :
    passDraws s = s.draws + 1 := by
  unfold passDraws
  rw [h]

/-- Settles O43: the snapshot is the one the pass chose, `passSnapshot`. -/
theorem consumedUnderLatestPublished : Obligations.ConsumedUnderLatestPublished := by
  intro s hf hrun hcur hmode
  refine ⟨passSnapshot s, passSnapshot_mem s, ?_⟩
  rw [exec_consumed_running hf hrun, refill_eq s hcur, passDraws_latestPublished hmode]
  rfl

/-! ### The window of admissible snapshots (R81) -/

theorem keptAfter_latestPublished {s : State} (h : s.cfg.snapshotMode = .latestPublished) :
    keptAfter s = s.published ++ [s.snapshot] := if_pos h

/-- An operation that does not end the window keeps the snapshot before it, or leaves registers, timers and kept
snapshots alone. -/
theorem Effect.published_cases {s t : State} {o : Operation} (h : Effect s o t) (hreset : o ≠ .reset)
    (hconsumed : o ≠ .consumed) :
    t.published = keptAfter s ∨ t.published = s.published ∧ t.snapshot = s.snapshot := by
  cases h with
  | reset => exact absurd rfl hreset
  | consumed | consumedNothing => exact absurd rfl hconsumed
  | writeRegister => exact .inl (by rw [writeRegister_frame])
  | tick => exact .inl (by rw [publish_eq])
  | start => exact .inr ⟨begin_published s, congrArg₂ Snapshot.mk (begin_reg s) (begin_timer s)⟩
  | _ => exact .inr ⟨rfl, rfl⟩

/-- RESET and every CONSUMED end the window (log 5). -/
theorem Effect.published_eq_nil {s t : State} {o : Operation} (h : Effect s o t) (ho : o = .reset ∨ o = .consumed) :
    t.published = [] := by
  cases h with
  | reset | consumed | consumedNothing => rfl
  | _ => simp at ho

/-- Settles O44: `Effect.published_cases` for the operations within a window, `Effect.published_eq_nil` for its end. -/
theorem snapshotsSinceTheLastConsumedStayReadable : Obligations.SnapshotsSinceTheLastConsumedStayReadable := by
  intro s t i hmode hexec
  have heff := exec_effect hexec
  refine ⟨fun hreset hconsumed snap => ?_, fun hi => ?_⟩
  · obtain hkept | ⟨hpub, hsnap⟩ := heff.published_cases (mt eq_reset hreset) (mt eq_consumed hconsumed)
    · rw [hkept, keptAfter_latestPublished hmode, List.mem_append, List.mem_singleton]
    · rw [hpub, hsnap]
      simp
  · have ho : i.operation = .reset ∨ i.operation = .consumed :=
      hi.imp (congrArg Instr.operation) (congrArg Instr.operation)
    rw [heff.published_eq_nil ho, List.nil_append]

end Sys2Proof.Machine
end

section
/-! PROOF. Decoding and encoding are inverse to each other (30_encoding.md R93, R94, R99, R100): both go through the
operation a word spells. -/

namespace Sys2Proof

/-! ### The row of an operation (R99) -/

/-- The instruction the decoder reads from an operation's word: the first matching row (R99). -/
def Operation.row : Operation → Instr
  | .busw addr data => decodeBusw addr data
  | .busr addr => decodeBusr addr
  | .tick => .tick
  | .consumed => .consumed
  | .start => .start
  | .stop => .stop
  | .reset => .reset
  | .mapr first last target => .mapr first last target
  | .mapw first last target => .mapw first last target

/-- The row of an operation spells it. -/
theorem Operation.operation_row (o : Operation) : o.row.operation = o := by
  cases o with
  | busw addr v =>
    show (decodeBusw addr v).operation = _
    unfold decodeBusw
    split
    · next h => rw [Machine.operation_wrRow, rowAddr_of_regRow h]
    · rfl
  | busr addr =>
    show (decodeBusr addr).operation = _
    unfold decodeBusr
    split
    · next h => rw [Machine.operation_rdRow, rowAddr_of_regRow h]
    · rfl
  | _ => rfl

theorem regRow_eq_none {addr : BusAddr} (h : (!isRegRow addr) = true) : regRow addr = none := by
  rw [isRegRow_eq] at h
  simpa using h

/-- A well-formed instruction is the row of its operation: a fallback row holds no address of a register row. -/
theorem Instr.row_operation {mask : Nat} {i : Instr} (h : i.wf mask = true) : i.operation.row = i := by
  cases i with
  | wr00 hi v | wr01 hi v | wr02 hi v | wr03 hi v | wr04 hi v | wr05 hi v | wr06 hi v | wr07 hi v
  | wr08 hi v | wr09 hi v | wr0A hi v | wr0B hi v | wr0C hi v | wr0D hi v | wr0E hi v | wr0F hi v
  | wr10 hi v | wr11 hi v | wr12 hi v | wr13 hi v | wr14 hi v | wr15 hi v | wr16 hi v | wr17 hi v =>
    exact Eq.trans (decodeBusw_rowAddr ⟨_, by decide⟩ hi v) rfl
  | rd00 hi | rd01 hi | rd02 hi | rd03 hi | rd04 hi | rd05 hi | rd06 hi | rd07 hi
  | rd08 hi | rd09 hi | rd0A hi | rd0B hi | rd0C hi | rd0D hi | rd0E hi | rd0F hi
  | rd10 hi | rd11 hi | rd12 hi | rd13 hi | rd14 hi | rd15 hi | rd16 hi | rd17 hi =>
    exact Eq.trans (decodeBusr_rowAddr ⟨_, by decide⟩ hi) rfl
  | busw addr v =>
    show decodeBusw addr v = _
    unfold decodeBusw
    rw [regRow_eq_none h]
  | busr addr =>
    show decodeBusr addr = _
    unfold decodeBusr
    rw [regRow_eq_none h]
  | _ => rfl

/-! ### Decoding the word of an operation (R93, R94) -/

theorem decodeRange_cWord {mask : Nat} {first last : BusAddr} {target : Target} (hfirst : first.toNat ≤ mask)
    (hlast : last.toNat ≤ mask) (ht : target.wf = true) (k : Nibble) (mk : BusAddr → BusAddr → Target → Instr) :
    decodeRange mask (k ++ 0#4 ++ first ++ last ++ target.code) mk = .ok (mk first last target) := by
  unfold decodeRange
  rw [cFields_zero, cFields_first, cFields_last, cFields_target, decodeTarget_code ht, if_neg (by decide),
    if_neg (not_lt.mpr hfirst), if_neg (not_lt.mpr hlast)]

/-- The word of an operation decodes to the operation's row. -/
theorem decode_operation_encode {mask : Nat} {o : Operation} (h : o.row.wf mask = true) :
    decode mask o.encode = .ok o.row := by
  cases o with
  | mapr first last target | mapw first last target =>
    simp only [Operation.row, Instr.wf, Bool.and_eq_true, decide_eq_true_eq] at h
    obtain ⟨⟨hfirst, hlast⟩, ht⟩ := h
    simp only [Operation.encode, cWord, decode, decodeC, cFields_kind, Operation.kind,
      decodeRange_cWord hfirst hlast ht]
    rfl
  | _ =>
    simp only [Operation.encode, tWord, decode, decodeT, tFields_kind, tFields_addr, tFields_data, Operation.kind]
    rfl

/-- Settles O2: a well-formed instruction is the row of its operation, to which the operation's word decodes. -/
theorem decodeOfEncode : Obligations.DecodeOfEncode := by
  intro mask i h
  have hrow := Instr.row_operation h
  have hdecode := decode_operation_encode (o := i.operation) (hrow.symm ▸ h)
  rwa [hrow] at hdecode

/-! ### The operation a word spells -/

theorem tWord_eq_of_fields {w : BitVec 32} {k : Nibble} {addr : BusAddr} {v : Byte} (hk : w.extractLsb' 28 4 = k)
    (ha : w.extractLsb' 8 20 = addr) (hv : w.extractLsb' 0 8 = v) : tWord k addr v = .t w := by
  subst hk ha hv
  exact congrArg TransWord.t (tFields_eta w)

/-- A word of a kind without operands decodes only with its operand fields zero (R100). -/
theorem fields_of_decodeBare {addr : BusAddr} {v : Byte} {i j : Instr} (h : decodeBare addr v i = .ok j) :
    addr = 0 ∧ v = 0 := by
  unfold decodeBare at h
  split_ifs at h with ha hv
  exact ⟨not_not.mp ha, not_not.mp hv⟩

/-- A word of a kind without operands that decodes is the word of that operation. -/
theorem eq_row_of_decodeBare {w : BitVec 32} {i : Instr} (o : Operation) (hk : w.extractLsb' 28 4 = o.kind)
    (ho : o.encode = tWord o.kind 0 0) (h : decodeBare (w.extractLsb' 8 20) (w.extractLsb' 0 8) o.row = .ok i) :
    ∃ o : Operation, o.encode = .t w ∧ o.row = i := by
  obtain ⟨ha, hv⟩ := fields_of_decodeBare h
  exact ⟨o, ho.trans (tWord_eq_of_fields hk ha hv), (decodeBare_eq_ok h).symm⟩

/-- A 32-bit word that decodes is the word of an operation, and decodes to its row. -/
theorem decodeT_eq_ok {w : BitVec 32} {i : Instr} (h : decodeT w = .ok i) :
    ∃ o : Operation, o.encode = .t w ∧ o.row = i := by
  unfold decodeT at h
  dsimp only at h
  split_ifs at h with h1 h2 hv h3 h4 h5 h6 h7
  · exact ⟨.busw _ _, tWord_eq_of_fields h1 rfl rfl, Except.ok.inj h⟩
  · exact ⟨.busr _, tWord_eq_of_fields h2 rfl (not_not.mp hv), Except.ok.inj h⟩
  · exact eq_row_of_decodeBare .tick h3 rfl h
  · exact eq_row_of_decodeBare .consumed h4 rfl h
  · exact eq_row_of_decodeBare .start h5 rfl h
  · exact eq_row_of_decodeBare .stop h6 rfl h
  · exact eq_row_of_decodeBare .reset h7 rfl h

theorem cWord_eq_of_fields {w : BitVec 64} {k : Nibble} (hk : w.extractLsb' 60 4 = k) (hz : w.extractLsb' 56 4 = 0) :
    cWord k (w.extractLsb' 36 20) (w.extractLsb' 16 20) (decodeTarget (w.extractLsb' 0 16)) = .c w := by
  unfold cWord
  rw [(code_decodeTarget _).1, ← hk, show (0#4) = w.extractLsb' 56 4 from hz.symm]
  exact congrArg TransWord.c (cFields_eta w)

/-- A 64-bit word that decodes is the word of an operation, and decodes to its row. -/
theorem decodeC_eq_ok {mask : Nat} {w : BitVec 64} {i : Instr} (h : decodeC mask w = .ok i) :
    ∃ o : Operation, o.encode = .c w ∧ o.row = i := by
  unfold decodeC decodeRange at h
  dsimp only at h
  split_ifs at h with h8 hz _ _ h9 hz
  · exact ⟨.mapr _ _ _, cWord_eq_of_fields h8 (not_not.mp hz), Except.ok.inj h⟩
  · exact ⟨.mapw _ _ _, cWord_eq_of_fields h9 (not_not.mp hz), Except.ok.inj h⟩

/-- Settles O3: a word that decodes is the word of an operation, and its row spells that operation. -/
theorem encodeOfDecode : Obligations.EncodeOfDecode := by
  intro mask w i h
  refine ⟨?_, decode_wf h⟩
  have hword : ∃ o : Operation, o.encode = w ∧ o.row = i := by
    cases w with
    | t w => exact decodeT_eq_ok h
    | c w => exact decodeC_eq_ok h
  obtain ⟨o, rfl, rfl⟩ := hword
  exact congrArg Operation.encode o.operation_row

end Sys2Proof
end

section
/-! PROOF. The words the decoder refuses (30_encoding.md R93, R94, R100), and how a step takes the next word (R98 step
1, 70_reset_and_hazards.md R292). -/

namespace Sys2Proof

/-- A field of a word by arithmetic on the word's number. -/
theorem toNat_field {n : Nat} (w : BitVec n) (lo len : Nat) :
    (w.extractLsb' lo len).toNat = w.toNat / 2 ^ lo % 2 ^ len := by
  rw [BitVec.extractLsb'_toNat, Nat.shiftRight_eq_div_pow]

/-! ### The refusals (R100) -/

theorem decodeBare_error_iff {addr : BusAddr} {v : Byte} {i : Instr} :
    (∃ e, decodeBare addr v i = .error e) ↔ v ≠ 0 ∨ addr ≠ 0 := by
  unfold decodeBare
  split_ifs with ha hv
  · exact iff_of_true ⟨_, rfl⟩ (.inr ha)
  · exact iff_of_true ⟨_, rfl⟩ (.inl hv)
  · exact iff_of_false (fun ⟨_, h⟩ => nomatch h) (fun h => h.elim hv ha)

theorem decodeRange_error_iff {mask : Nat} {w : BitVec 64} {mk : BusAddr → BusAddr → Target → Instr} :
    (∃ e, decodeRange mask w mk = .error e) ↔
      w.extractLsb' 56 4 ≠ 0 ∨ mask < (w.extractLsb' 36 20).toNat ∨ mask < (w.extractLsb' 16 20).toNat := by
  unfold decodeRange
  split_ifs with hz hfirst hlast
  · exact iff_of_true ⟨_, rfl⟩ (.inl hz)
  · exact iff_of_true ⟨_, rfl⟩ (.inr (.inl hfirst))
  · exact iff_of_true ⟨_, rfl⟩ (.inr (.inr hlast))
  · exact iff_of_false (fun ⟨_, h⟩ => nomatch h) (fun h => h.elim hz (·.elim hfirst hlast))

/-- The kinds a 32-bit word cannot have: all but 1 to 7 (R95). -/
theorem kind_not_t : ∀ k : Nibble, k ≠ 1 → k ≠ 2 → k ≠ 3 → k ≠ 4 → k ≠ 5 → k ≠ 6 → k ≠ 7 →
    k = 0 ∨ 8 ≤ k := by decide

theorem decodeT_error_iff {w : BitVec 32} : (∃ e, decodeT w = .error e) ↔
      (w.extractLsb' 28 4 = 0 ∨ 8 ≤ w.extractLsb' 28 4)
      ∨ (w.extractLsb' 28 4 ≠ 1 ∧ w.extractLsb' 0 8 ≠ 0)
      ∨ (w.extractLsb' 28 4 ≠ 1 ∧ w.extractLsb' 28 4 ≠ 2 ∧ w.extractLsb' 8 20 ≠ 0) := by
  unfold decodeT
  dsimp only
  generalize w.extractLsb' 28 4 = k
  split_ifs with h1 h2 hv h3 h4 h5 h6 h7 h89
  · simp [h1]
  · exact iff_of_true ⟨_, rfl⟩ (.inr (.inl ⟨h1, hv⟩))
  · simp [h2, not_not.mp hv]
  · simp [h3, decodeBare_error_iff]
  · simp [h4, decodeBare_error_iff]
  · simp [h5, decodeBare_error_iff]
  · simp [h6, decodeBare_error_iff]
  · simp [h7, decodeBare_error_iff]
  · exact iff_of_true ⟨_, rfl⟩ (.inl (kind_not_t k h1 h2 h3 h4 h5 h6 h7))
  · exact iff_of_true ⟨_, rfl⟩ (.inl (kind_not_t k h1 h2 h3 h4 h5 h6 h7))

theorem decodeC_error_iff {mask : Nat} {w : BitVec 64} : (∃ e, decodeC mask w = .error e) ↔
      (w.extractLsb' 60 4 ≠ 8 ∧ w.extractLsb' 60 4 ≠ 9)
      ∨ w.extractLsb' 56 4 ≠ 0 ∨ mask < (w.extractLsb' 36 20).toNat ∨ mask < (w.extractLsb' 16 20).toNat := by
  unfold decodeC
  dsimp only
  split_ifs with h8 h9 h17
  · simp only [decodeRange_error_iff, h8, ne_eq, not_true, false_and, false_or]
  · simp only [decodeRange_error_iff, h9, ne_eq, not_true, and_false, false_or]
  · exact iff_of_true ⟨_, rfl⟩ (.inl ⟨h8, h9⟩)
  · exact iff_of_true ⟨_, rfl⟩ (.inl ⟨h8, h9⟩)

end Sys2Proof

namespace Sys2Proof.Machine

/-! ### The step -/

section NextWord
variable {s : State} {w : TransWord} {rest : List TransWord}

theorem step_of_nil (h : s.trace = []) : step s = .next s := by
  unfold step runNext
  rw [h]

theorem step_of_decode_ok {i : Instr} (h : s.trace = w :: rest) (hw : decode s.cfg.busMask w = .ok i) :
    step s = present i (takeWord rest s) := by
  unfold step runNext
  simp only [h, hw]

theorem step_of_decode_error {e : IllFormed} (h : s.trace = w :: rest) (hw : decode s.cfg.busMask w = .error e) :
    step s = .refused (.illFormed s.pos e) := by
  unfold step runNext
  simp only [h, hw]

end NextWord

theorem present_next {i : Instr} {s t : State} (h : exec i s = .next t) : present i s = .next t := by
  unfold present
  rw [h]

theorem present_refused {i : Instr} {s : State} {r : Refusal} (h : exec i s = .refused r) :
    present i s = .refused r := by
  unfold present
  rw [h]

/-- An operation a faulted block refuses leaves the block as it is (log 9). -/
theorem present_fault {i : Instr} {s : State} {f : Fault} (h : exec i s = .fault f) : present i s = .next s := by
  unfold present
  rw [h]

/-- Settles O4: `decodeT_error_iff` and `decodeC_error_iff`, with the fields by arithmetic on the word's number. -/
theorem illFormedWordsAreRefused : Obligations.IllFormedWordsAreRefused := by
  refine ⟨fun mask w => ?_, fun mask w => ?_, fun _ _ _ _ => step_of_decode_error⟩
  · have := w.isLt
    show (∃ e, decodeT w = .error e) ↔ _
    simp only [decodeT_error_iff, BitVec.toNat_ne, BitVec.le_def, ← BitVec.toNat_inj, toNat_field,
      BitVec.ofNat_eq_ofNat, BitVec.toNat_ofNat]
    omega
  · have := w.isLt
    show (∃ e, decodeC mask w = .error e) ↔ _
    simp only [decodeC_error_iff, BitVec.toNat_ne, toNat_field, BitVec.ofNat_eq_ofNat, BitVec.toNat_ofNat]
    omega

/-- Settles O6: the step is `present` of the instruction on the state with the word taken, by its three outcomes. -/
theorem stepPerformsTheNextWord : Obligations.StepPerformsTheNextWord := by
  refine ⟨fun s w rest i htrace hw => ?_, fun s => step_of_nil⟩
  rw [step_of_decode_ok htrace hw]
  exact ⟨fun _ => present_next, fun _ => present_refused, fun _ => present_fault⟩

/-! ### Rows in the standard configuration (R69, R99) -/

/-- Row `RD.k` is the read of register `k`. -/
theorem exec_rdRow {s : State} (h : Standard s) (k : Fin 24) (hi : Nibble) :
    exec (rdRow k hi) s = .next (reply s.reg[k] s) := by
  rw [exec_eq, operation_rdRow]
  exact busRead_reaches (h.readReaches k hi)

/-- Settles O17: the rows are the register accesses of their indices (`exec_wrRow`, `exec_rdRow`). -/
theorem rowsReachTheirRegisters : Obligations.RowsReachTheirRegisters := by
  intro s k hi v h
  refine ⟨⟨writeRegister k v s, exec_wrRow h k hi v, ?_, fun j hj => ?_⟩, exec_rdRow h k hi⟩
  · rw [writeRegister_reg_get, if_pos rfl]
  · rw [writeRegister_reg_get, if_neg hj]

end Sys2Proof.Machine
end

section
/-! PROOF. The length of a word from its top nibble (30_encoding.md R91, R95), and the worked encodings (R104). -/

namespace Sys2Proof

/-! ### Words as digits (R91) -/

/-- The low `count` digits of a word, most significant first. -/
def lowDigits {n : Nat} (w : BitVec n) : (count : Nat) → List Nibble
  | 0 => []
  | count + 1 => w.extractLsb' (4 * count) 4 :: lowDigits w count

theorem digits_t (w : BitVec 32) : (TransWord.t w).digits = lowDigits w 8 := rfl

theorem digits_c (w : BitVec 64) : (TransWord.c w).digits = lowDigits w 16 := rfl

@[simp] theorem lowDigits_length {n : Nat} (w : BitVec n) (count : Nat) : (lowDigits w count).length = count := by
  induction count with
  | zero => rfl
  | succ count ih => rw [lowDigits, List.length_cons, ih]

theorem toNat_digit {n : Nat} (w : BitVec n) (j : Nat) :
    (w.extractLsb' (4 * j) 4).toNat = w.toNat / 16 ^ j % 16 := by
  rw [toNat_field, pow_mul]
  rfl

/-- Digits read on from a number read so far. -/
theorem foldl_lowDigits {n : Nat} (w : BitVec n) (count acc : Nat) :
    (lowDigits w count).foldl (fun a d => a * 16 + d.toNat) acc = acc * 16 ^ count + w.toNat % 16 ^ count := by
  induction count generalizing acc with
  | zero => simp [lowDigits, Nat.mod_one]
  | succ count ih =>
    rw [lowDigits, List.foldl_cons, ih, toNat_digit, Nat.mod_pow_succ]
    ring

/-- All digits of a word read back as the word. -/
theorem ofNat_ofDigits_lowDigits {count : Nat} (w : BitVec (4 * count)) :
    BitVec.ofNat (4 * count) (ofDigits (lowDigits w count)) = w := by
  have hw : w.toNat < 16 ^ count := by
    have := w.isLt
    rwa [pow_mul] at this
  unfold ofDigits
  rw [foldl_lowDigits, Nat.zero_mul, Nat.zero_add, Nat.mod_eq_of_lt hw, BitVec.ofNat_toNat, BitVec.setWidth_eq]

/-! ### The next word (R95) -/

theorem nextWord_t {d : Nibble} {ds rest : List Nibble} (hd : 1 ≤ d.toNat ∧ d.toNat ≤ 7) (hds : ds.length = 7) :
    nextWord (d :: (ds ++ rest)) = .ok (.t (BitVec.ofNat 32 (ofDigits (d :: ds))), rest) := by
  rw [nextWord, if_pos hd, if_pos (by simp [hds]), List.take_left' hds, List.drop_left' hds]

theorem nextWord_c {d : Nibble} {ds rest : List Nibble} (hd : d.toNat = 8 ∨ d.toNat = 9) (hds : ds.length = 15) :
    nextWord (d :: (ds ++ rest)) = .ok (.c (BitVec.ofNat 64 (ofDigits (d :: ds))), rest) := by
  rw [nextWord, if_neg (by omega), if_pos hd, if_pos (by simp [hds]), List.take_left' hds, List.drop_left' hds]

theorem nextWord_reserved {d : Nibble} (hd : d.toNat = 0 ∨ 0xA ≤ d.toNat) (ds : List Nibble) :
    nextWord (d :: ds) = .error (.reservedKind d) := by
  rw [nextWord, if_neg (by omega), if_neg (by omega)]

/-- Settles O5: the digits of a word are its top nibble and the rest, and the digits read back as its number. -/
theorem lengthByTopNibble : Obligations.LengthByTopNibble := by
  refine ⟨fun w ds h1 h7 => ?_, fun w ds h => ?_, fun d ds h => nextWord_reserved h ds⟩
  · have hd : 1 ≤ (w.extractLsb' (4 * 7) 4).toNat ∧ (w.extractLsb' (4 * 7) 4).toNat ≤ 7 := by
      have := w.isLt
      rw [toNat_digit]
      omega
    have hw : BitVec.ofNat 32 (ofDigits (lowDigits w 8)) = w := ofNat_ofDigits_lowDigits (count := 8) w
    rw [digits_t]
    exact (nextWord_t hd (lowDigits_length w 7)).trans (by rw [← lowDigits, hw])
  · have hd : (w.extractLsb' (4 * 15) 4).toNat = 8 ∨ (w.extractLsb' (4 * 15) 4).toNat = 9 := by
      have := w.isLt
      rw [toNat_digit]
      omega
    have hw : BitVec.ofNat 64 (ofDigits (lowDigits w 16)) = w := ofNat_ofDigits_lowDigits (count := 16) w
    rw [digits_c]
    exact (nextWord_c hd (lowDigits_length w 15)).trans (by rw [← lowDigits, hw])

/-- Settles O1: twelve fixed words, evaluated. -/
theorem workedEncodings : Obligations.WorkedEncodings := by
  unfold Obligations.WorkedEncodings
  decide

end Sys2Proof
end

section
/-! PROOF. Bus accesses by the target of their slot (40_bus.md R125, R126, R128), and handler registration (R123,
R124). -/

namespace Sys2Proof.Machine

/-! ### Where a fault comes from (R260, R261, R262) -/

/-- Where no fault is recorded, an operation leaves it so, or is a read of a `Default` slot that raises fault 1, or an
access to an `Apu` slot outside the register file that raises fault 2. -/
theorem Effect.fault_cases {s t : State} {o : Operation} (h : Effect s o t) (hf : s.fault = none) :
    t.fault = none
    ∨ (∃ addr, o = .busr addr ∧ s.rdh.lookup (slotOf s addr) = .default
        ∧ t = raise (.unmappedRead (slotOf s addr)) s)
    ∨ ∃ addr, ((o = .busr addr ∧ s.rdh.lookup (slotOf s addr) = .apu)
          ∨ ∃ v, o = .busw addr v ∧ s.wrh.lookup (slotOf s addr) = .apu)
        ∧ ¬(0x4000 ≤ slotOf s addr ∧ slotOf s addr < 0x4018) ∧ t = raise (.regIndexOutOfRange (slotOf s addr)) s := by
  cases h with
  | reset => exact .inl rfl
  | readUnmapped _ hl => exact .inr (.inl ⟨_, rfl, hl, rfl⟩)
  | readFault _ hl ha => exact .inr (.inr ⟨_, .inl ⟨rfl, hl⟩, ha, rfl⟩)
  | writeFault _ hl ha => exact .inr (.inr ⟨_, .inr ⟨_, rfl, hl⟩, ha, rfl⟩)
  | writeRegister => exact .inl (by rw [writeRegister_fault, hf])
  | start => exact .inl (by rw [begin_fault, hf])
  | tick => exact .inl (by rw [publish_eq]; exact hf)
  | _ => exact .inl hf

/-- Settles O7: the read of a `Default` slot is `busRead_default`, and `Effect.fault_cases` gives no other source of fault 1. -/
theorem unmappedReadRaises : Obligations.UnmappedReadRaises := by
  refine ⟨fun s i addr ho hf hl => ?_, fun _ => rfl, fun s t i a hf hexec ht => ?_⟩
  · rw [exec_eq, ho]
    exact busRead_default hf hl
  · obtain hnone | ⟨addr, ho, hl, rfl⟩ | ⟨addr, -, -, rfl⟩ := (exec_effect hexec).fault_cases hf
    · rw [hnone] at ht
      cases ht
    · cases ht
      exact ⟨addr, ho, rfl, hl⟩
    · cases ht

/-! ### Slots of outside devices and `Default` slots (R126, R128) -/

/-- Settles O10: the accesses to an `Ext` slot, `busWrite_ext` and `busRead_ext`. -/
theorem externalSlotAccess : Obligations.ExternalSlotAccess := by
  refine ⟨fun s i addr v id ho hf hl => ?_, fun s i addr id ho hf hl => ?_⟩
  · rw [exec_eq, ho]
    exact busWrite_ext hf hl v
  · rw [exec_eq, ho]
    exact busRead_ext hf hl

/-- Settles O11: the write to a `Default` slot, `busWrite_default`. -/
theorem unmappedWriteIsDiscarded : Obligations.UnmappedWriteIsDiscarded := by
  intro s i addr v ho hf hl
  rw [exec_eq, ho]
  exact busWrite_default hf hl v

/-! ### Handler registration (R123, R124) -/

/-- A word of format C with an end above the mask is refused, whatever its kind and target (R100). -/
theorem decode_cWord_aboveMask {mask : Nat} {first last : BusAddr} (h : mask < first.toNat ∨ mask < last.toNat)
    (kind : Nibble) (target : Target) : ∃ e, decode mask (cWord kind first last target) = .error e := by
  refine decodeC_error_iff.mpr (.inr (.inr ?_))
  rwa [cFields_first, cFields_last]

/-- MAPR, whole (R123). -/
theorem exec_mapr {s : State} (hf : s.fault = none) (first last : BusAddr) (target : Target) :
    exec (.mapr first last target) s = .next { s with rdh := s.rdh.setRange first.toNat last.toNat target } :=
  accept_clear hf _

/-- MAPW, whole (R124). -/
theorem exec_mapw {s : State} (hf : s.fault = none) (first last : BusAddr) (target : Target) :
    exec (.mapw first last target) s = .next { s with wrh := s.wrh.setRange first.toNat last.toNat target } :=
  accept_clear hf _

/-- Settles O13: MAPR is `setRange` on the read table, whose lookups are `lookup_setRange`. -/
theorem mapReadSetsTheRange : Obligations.MapReadSetsTheRange :=
  ⟨fun _ first last target hf hwf ht =>
      ⟨_, exec_mapr hf first last target, lookup_setRange hwf ht first.toNat last.toNat⟩,
    fun _ _ _ target h => decode_cWord_aboveMask h _ target⟩

/-- Settles O14: MAPW is `setRange` on the write table, whose lookups are `lookup_setRange`. -/
theorem mapWriteSetsTheRange : Obligations.MapWriteSetsTheRange :=
  ⟨fun _ first last target hf hwf ht =>
      ⟨_, exec_mapw hf first last target, lookup_setRange hwf ht first.toNat last.toNat⟩,
    fun _ _ _ target h => decode_cWord_aboveMask h _ target⟩

end Sys2Proof.Machine
end

section
/-! PROOF. The register file (41_register_file.md): reads, writes with their reloads, the rows in the standard
configuration, and the round trip of a byte. -/

namespace Sys2Proof.Machine

/-! ### Accesses that reach a register (R140, R157) -/

theorem exec_of_writeReaches {s : State} {i : Instr} {addr : BusAddr} {v : Byte} {k : Fin 24}
    (ho : i.operation = .busw addr v) (h : WriteReaches s addr k) : exec i s = .next (writeRegister k v s) := by
  rw [exec_eq, ho]
  exact busWrite_reaches h v

theorem exec_of_readReaches {s : State} {i : Instr} {addr : BusAddr} {k : Fin 24}
    (ho : i.operation = .busr addr) (h : ReadReaches s addr k) : exec i s = .next (reply s.reg[k] s) := by
  rw [exec_eq, ho]
  exact busRead_reaches h

/-- Settles O9: a read that reaches a register is `reply` of the stored byte. -/
theorem readReturnsTheStoredByte : Obligations.ReadReturnsTheStoredByte :=
  fun _ _ _ _ ho h => exec_of_readReaches ho h

/-- Settles O16: a write that reaches a register is `writeRegister`, whose frame and fields are its laws. -/
theorem writeStoresAndReloads : Obligations.WriteStoresAndReloads := by
  intro s i addr v k ho h
  refine ⟨writeRegister k v s, exec_of_writeReaches ho h, ?_, writeRegister_reg_get k v s,
    writeRegister_timer_get k v s⟩
  rw [writeRegister_reg]
  exact writeRegister_frame k v s

/-! ### A register write, whole (R140, R38) -/

theorem loadIndex_inj : ∀ {c d : Fin 5}, loadIndex c = loadIndex d ↔ c = d := by decide

/-- A write to a register that loads no slot writes no timer. -/
theorem writeRegister_of_loads_none {k : Fin 24} (hk : ∀ c, k ≠ loadIndex c) (v : Byte) (s : State) :
    writeRegister k v s = { s with reg := s.reg.set k v, published := keptAfter s } := by
  have htimer : (writeRegister k v s).timer = s.timer :=
    Vector.ext fun c hc => (writeRegister_timer_get k v s ⟨c, hc⟩).trans (if_neg (hk _))
  rw [writeRegister_frame, htimer]

/-- A write to the register of slot `c` loads slot `c`, whatever it held, and no other slot. -/
theorem writeRegister_of_loads {k : Fin 24} {c : Fin 5} (hk : k = loadIndex c) (v : Byte) (s : State) :
    writeRegister k v s =
      { s with reg := s.reg.set k v, timer := s.timer.set c (loadValue s.cfg c v), published := keptAfter s } := by
  have htimer : (writeRegister k v s).timer = s.timer.set c (loadValue s.cfg c v) := by
    refine Vector.ext fun d hd => (writeRegister_timer_get k v s ⟨d, hd⟩).trans ?_
    rw [hk, Vector.getElem_set]
    by_cases h : c = ⟨d, hd⟩
    · subst h
      simp
    · simp [loadIndex_inj, h, Fin.val_ne_iff.mpr h]
  rw [writeRegister_frame, htimer]

/-! ### The rows in the standard configuration -/

theorem exec_wrRow_of_loads_none {s : State} (h : Standard s) {k : Fin 24} (hk : ∀ c, k ≠ loadIndex c) (hi : Nibble)
    (v : Byte) : exec (wrRow k hi v) s = .next { s with reg := s.reg.set k v, published := keptAfter s } := by
  rw [exec_wrRow h, writeRegister_of_loads_none hk]

theorem exec_wrRow_of_loads {s : State} (h : Standard s) {k : Fin 24} {c : Fin 5} (hk : k = loadIndex c) (hi : Nibble)
    (v : Byte) :
    exec (wrRow k hi v) s = .next
      { s with reg := s.reg.set k v, timer := s.timer.set c (loadValue s.cfg c v), published := keptAfter s } := by
  rw [exec_wrRow h, writeRegister_of_loads hk]

/-- Settles O23: no register of the list is the register of a slot. -/
theorem writesWithoutRoleStoreOnly : Obligations.WritesWithoutRoleStoreOnly := by
  intro s k hi v h hk
  have hloads : ∀ c, k ≠ loadIndex c := by
    revert k
    decide
  exact exec_wrRow_of_loads_none h hloads hi v

/-- Settles O18: registers 0x00, 0x04, 0x0C load no slot, and hold the halt bits of slots 0, 1, 3. -/
theorem controlWritesSetTheHaltBit : Obligations.ControlWritesSetTheHaltBit := by
  intro s hi v h
  refine ⟨⟨_, exec_wrRow_of_loads_none h (k := 0x00) (by decide) hi v, rfl, ?_⟩,
    ⟨_, exec_wrRow_of_loads_none h (k := 0x04) (by decide) hi v, rfl, ?_⟩,
    ⟨_, exec_wrRow_of_loads_none h (k := 0x0C) (by decide) hi v, rfl, ?_⟩⟩
  all_goals simp [halt_eq, haltBit]

/-- Settles O19: registers 0x02, 0x06, 0x0A load no slot, and are the low bytes of the periods. -/
theorem periodLowWritesSetTheLowByte : Obligations.PeriodLowWritesSetTheLowByte := by
  intro s hi v h
  refine ⟨⟨_, exec_wrRow_of_loads_none h (k := 0x02) (by decide) hi v, rfl, ?_⟩,
    ⟨_, exec_wrRow_of_loads_none h (k := 0x06) (by decide) hi v, rfl, ?_⟩,
    ⟨_, exec_wrRow_of_loads_none h (k := 0x0A) (by decide) hi v, rfl, ?_⟩⟩
  · simp [pulse1Period, State.snapshot, period_eq]
  · simp [pulse2Period, State.snapshot, period_eq]
  · simp [trianglePeriod, State.snapshot, period_eq]

/-- Settles O20: registers 0x03, 0x07, 0x0B, 0x0F load slots 0 to 3, and the first three are the high bytes of the
periods. -/
theorem periodHighWritesReload : Obligations.PeriodHighWritesReload := by
  intro s hi v h
  refine ⟨⟨_, exec_wrRow_of_loads h (k := 0x03) (c := 0) rfl hi v, rfl, ?_⟩,
    ⟨_, exec_wrRow_of_loads h (k := 0x07) (c := 1) rfl hi v, rfl, ?_⟩,
    ⟨_, exec_wrRow_of_loads h (k := 0x0B) (c := 2) rfl hi v, rfl, ?_⟩,
    exec_wrRow_of_loads h (k := 0x0F) (c := 3) rfl hi v⟩
  · simp [pulse1Period, State.snapshot, period_eq]
  · simp [pulse2Period, State.snapshot, period_eq]
  · simp [trianglePeriod, State.snapshot, period_eq]

/-- Settles O21: register 0x08 loads slot 4 alone, and holds the halt bit of slots 2 and 4. -/
theorem triangleControlWriteLoadsAndHalts : Obligations.TriangleControlWriteLoadsAndHalts := by
  intro s hi v h
  refine ⟨_, exec_wrRow_of_loads h (k := 0x08) (c := 4) rfl hi v, rfl, ?_, ?_, ?_⟩
  · simp [halt_eq, haltBit]
  · simp [halt_eq, haltBit]
  · simp

/-! ### The enable bits (R36) -/

/-- The bit of register 0x15 that enables a channel. -/
def enableBit : Channel → Nat
  | .pulse1 => 0
  | .pulse2 => 1
  | .triangle => 2
  | .noise => 3

/-- The mask of one bit tests that bit. -/
theorem and_twoPow_bne_zero (v : Byte) {j : Nat} (hj : j < 8) : (v &&& BitVec.twoPow 8 j != 0) = v.getLsbD j := by
  have hpos : BitVec.twoPow 8 j ≠ 0 := by
    intro h
    simpa [hj] using congrArg (·.getLsbD j) h
  rw [BitVec.and_twoPow]
  split
  · next hv => simpa [hv] using hpos
  · next hv => simp [hv]

theorem enabled_eq (reg : Vector Byte 24) (ch : Channel) : enabled reg ch = reg[0x15].getLsbD (enableBit ch) := by
  cases ch with
  | pulse1 => exact and_twoPow_bne_zero _ (j := 0) (by decide)
  | pulse2 => exact and_twoPow_bne_zero _ (j := 1) (by decide)
  | triangle => exact and_twoPow_bne_zero _ (j := 2) (by decide)
  | noise => exact and_twoPow_bne_zero _ (j := 3) (by decide)

/-- Settles O22: register 0x15 loads no slot, and its low four bits are the enable bits (`enabled_eq`). -/
theorem enableWriteStoresOnly : Obligations.EnableWriteStoresOnly := by
  intro s hi v h
  refine ⟨_, exec_wrRow_of_loads_none h (k := 0x15) (by decide) hi v, rfl, ?_, ?_, ?_, ?_⟩
  all_goals simp [enabled_eq, enableBit]

/-! ### The round trip (R159) -/

/-- What every operation of a list keeps, the run of the list keeps. -/
theorem performAll_keeps {P : State → Prop} {ops : List Instr}
    (keeps : ∀ i ∈ ops, ∀ s t, exec i s = .next t → P s → P t) {s t : State}
    (hrun : performAll ops s = .next t) (hs : P s) : P t := by
  induction ops generalizing s with
  | nil => cases hrun; exact hs
  | cons i is ih =>
    unfold performAll at hrun
    split at hrun
    · next u hexec =>
      exact ih (fun j hj => keeps j (.tail i hj)) hrun (keeps i (.head is) s u hexec hs)
    · cases hrun
    · cases hrun

/-- An operation that is neither RESET nor a bus write at the slot of register `k` leaves `k` as it is (R21). -/
theorem exec_keeps_reg {s t : State} {i : Instr} {k : Fin 24} (hexec : exec i s = .next t) (hreset : i ≠ .reset)
    (hslot : ∀ addr x, i.operation = .busw addr x → slotOf s addr ≠ 0x4000 + k.val) : t.reg[k] = s.reg[k] := by
  by_contra hne
  obtain hi | ⟨addr, x, ho, ⟨-, hs, -⟩, -⟩ := registersChangeOnlyByWrites.2 s t i k hexec hne
  · exact hreset hi
  · exact hslot addr x ho hs

/-- Settles O25: the operations between keep the parameters, hence the slots, and the byte of register `k`. -/
theorem registerRoundTrip : Obligations.RegisterRoundTrip := by
  intro s s1 s2 k w r aw ar v between hw hreach hexec hbetween hrun hr hread
  obtain rfl : writeRegister k v s = s1 := by
    rw [exec_of_writeReaches hw hreach] at hexec
    exact Host.Outcome.next.inj hexec
  have hkept : s2.cfg = s.cfg ∧ s2.reg[k] = v := by
    refine performAll_keeps (P := fun x => x.cfg = s.cfg ∧ x.reg[k] = v) ?_ hrun ⟨writeRegister_cfg k v s, ?_⟩
    · rintro i hi x y hxy ⟨hcfg, hreg⟩
      obtain ⟨hreset, hslot⟩ := hbetween i hi
      have hslot' : ∀ addr b, i.operation = .busw addr b → slotOf x addr ≠ 0x4000 + k.val := by
        unfold slotOf at hslot ⊢
        rwa [hcfg]
      exact ⟨(exec_cfg hxy).trans hcfg, (exec_keeps_reg hxy hreset hslot').trans hreg⟩
    · rw [writeRegister_reg_get, if_pos rfl]
  rw [exec_of_readReaches hr hread, hkept.2]
  rfl

end Sys2Proof.Machine
end

section
/-! PROOF. The timers (42_timer_sequencer.md): what TICK takes from each slot (R181, R182), a run of TICKs (R183), and
what changes a slot (R170). -/

namespace Sys2Proof.Machine

/-! ### TICK (R181, R182) -/

/-- TICK passes over slot `c`: its halt bit is set and the policy heeds it (`gate` of R181, by the bit number). -/
abbrev Gated (s : State) (c : Fin 5) : Prop := s.cfg.tickPolicy = .gated ∧ haltBit s.reg c = true

/-- A slot after TICK. Natural subtraction keeps a slot at 0 there. -/
theorem timer_get_of_exec_tick {s t : State} (h : exec .tick s = .next t) (c : Fin 5) :
    t.timer[c] = if Gated s c then s.timer[c] else s.timer[c] - 1 := by
  obtain ⟨hf, -⟩ := accept_next h
  obtain rfl := Host.Outcome.next.inj ((exec_tick hf).symm.trans h)
  rw [tickTimers_get, tickSlot_eq]

/-- Settles O26: the frame is `exec_tick`, the slots are `timer_get_of_exec_tick`. -/
theorem tickCountsUngatedSlots : Obligations.TickCountsUngatedSlots := by
  intro s hf
  refine ⟨_, exec_tick hf, rfl, fun c => ?_⟩
  rw [timer_get_of_exec_tick (exec_tick hf) c]
  by_cases hgated : Gated s c
  · rw [if_pos hgated, if_neg fun h => h.2 hgated]
  · by_cases hlive : 0 < s.timer[c]
    · rw [if_neg hgated, if_pos ⟨hlive, hgated⟩]
    · rw [if_neg hgated, if_neg fun h => hlive h.1]
      omega

/-! ### A run of TICKs (R183) -/

/-- TICK writes no register, so it leaves every gate as it is. -/
theorem performAll_ticks {s : State} {c : Fin 5} (hf : s.fault = none) (hopen : ¬Gated s c) (m : Nat) :
    ∃ t, performAll (List.replicate m .tick) s = .next t ∧ t.timer[c] = s.timer[c] - m := by
  induction m generalizing s with
  | zero => exact ⟨s, rfl, rfl⟩
  | succ m ih =>
    have hslot := timer_get_of_exec_tick (exec_tick hf) c
    rw [if_neg hopen] at hslot
    rw [List.replicate_succ, performAll, exec_tick hf]
    obtain ⟨t, hrun, ht⟩ := ih (s := { s with
      timer := tickTimers s.cfg.tickPolicy s.reg s.timer, published := keptAfter s }) hf hopen
    exact ⟨t, hrun, by rw [ht, hslot, Nat.sub_sub, Nat.add_comm]⟩

/-- Settles O27: the laws are `timer_get_of_exec_tick` by the gate, the consequence is `performAll_ticks`. -/
theorem tickLaws : Obligations.TickLaws := by
  refine ⟨fun s t c h => ?_, fun s c m hf hopen => ?_⟩
  · have hslot := timer_get_of_exec_tick h c
    refine ⟨fun hp hh => ?_, fun hp hh _ => ?_, fun hp _ => ?_, fun h0 => ?_, ?_⟩
    · rw [hslot, if_pos ⟨hp, hh⟩]
    · rw [hslot, if_neg (by simp [hh])]
    · rw [hslot, if_neg (by simp [hp])]
    · rw [hslot, h0, ite_self]
    · rw [hslot]
      split <;> omega
  · have hgate : ¬Gated s c := fun ⟨hp, hh⟩ => by simp [hopen hp] at hh
    obtain ⟨t, hrun, ht⟩ := performAll_ticks hf hgate m
    exact ⟨t, hrun, by rw [ht, Nat.sub_eq_zero_iff_le]⟩

/-! ### What changes a slot (R170) -/

/-- The timers change only at TICK, by a write that reaches a register, and at RESET. -/
theorem Effect.timer_cases {s t : State} {o : Operation} (h : Effect s o t) :
    t.timer = s.timer ∨ o = .tick
    ∨ (∃ addr v k, o = .busw addr v ∧ WriteReaches s addr k ∧ t = Machine.writeRegister k v s)
    ∨ (o = .reset ∧ t = resetBlock s) := by
  cases h with
  | reset => exact .inr (.inr (.inr ⟨rfl, rfl⟩))
  | writeRegister hreach => exact .inr (.inr (.inl ⟨_, _, _, rfl, hreach, rfl⟩))
  | tick => exact .inr (.inl rfl)
  | start => exact .inl (begin_timer s)
  | _ => exact .inl rfl

/-- Settles O29: `Effect.timer_cases` gives the only changes, and what each leaves in a slot it changed. -/
theorem timersChangeOnlyByTickReloadReset : Obligations.TimersChangeOnlyByTickReloadReset := by
  intro s t i c hexec hne
  obtain htimer | ho | ⟨addr, v, k, ho, hreach, rfl⟩ | ⟨ho, rfl⟩ := (exec_effect hexec).timer_cases
  · exact absurd (by rw [htimer]) hne
  · obtain rfl := eq_tick ho
    have hslot := timer_get_of_exec_tick hexec c
    split at hslot
    · exact absurd hslot hne
    · exact .inl ⟨rfl, by omega⟩
  · have hslot := writeRegister_timer_get k v s c
    split at hslot
    · next hk => exact .inr (.inl ⟨addr, v, ho, hk ▸ hreach, hslot⟩)
    · exact absurd hslot hne
  · refine .inr (.inr ⟨eq_reset ho, ?_⟩)
    rw [resetBlock_timer]
    exact Vector.getElem_replicate _

end Sys2Proof.Machine
end

section
/-! PROOF. The waveforms and the phases (43_synthesizer.md R202, R205, R209). -/

namespace Sys2Proof.Machine

/-! ### Frequencies and phases (R201, R202) -/

/-- A phase as one exact rational, under any divider. -/
theorem phase_frequency (d p n : Nat) :
    phase (frequency d p) n = frac ((1789773 * n : Rat) / (44100 * d * ((p : Rat) + 1))) := by
  unfold phase frequency
  rw [div_mul_div_comm, mul_comm (d * ((p : Rat) + 1)), ← mul_assoc]
  norm_num

theorem phase_pulse (p n : Nat) :
    phase (frequency pulseDiv p) n = frac ((1789773 * n : Rat) / (705600 * ((p : Rat) + 1))) := by
  rw [phase_frequency]
  norm_num

theorem phase_triangle (p n : Nat) :
    phase (frequency triDiv p) n = frac ((1789773 * n : Rat) / (1411200 * ((p : Rat) + 1))) := by
  rw [phase_frequency]
  norm_num

/-- Settles O30: the frequencies are the definition in numbers, the phases are `phase_frequency`. -/
theorem phaseFormulas : Obligations.PhaseFormulas :=
  fun p n => ⟨by norm_num [frequency], by norm_num [frequency], phase_pulse p n, phase_triangle p n⟩

/-! ### The square wave (R205) -/

theorem sq_first_half {x : Rat} (h : x < 1 / 2) : sq x = 1 := if_pos h

theorem sq_second_half {x : Rat} (h : 1 / 2 ≤ x) : sq x = -1 := if_neg h.not_gt

theorem abs_sq (x : Rat) : |sq x| = 1 := by
  rcases lt_or_ge x (1 / 2) with h | h
  · rw [sq_first_half h, abs_one]
  · rw [sq_second_half h, abs_neg, abs_one]

/-- Settles O58: the edge at 1/2 belongs to the second half. -/
theorem squareWaveShape : Obligations.SquareWaveShape := fun _ _ _ => ⟨sq_first_half, sq_second_half⟩

/-! ### The triangle wave (R209) -/

theorem tri_rising {x : Rat} (h : x < 1 / 4) : tri x = 4 * x := if_pos h

theorem tri_falling {x : Rat} (h : 1 / 4 ≤ x) (h' : x < 3 / 4) : tri x = 2 - 4 * x := by
  rw [tri, if_neg h.not_gt, if_pos h']

theorem tri_returning {x : Rat} (h : 3 / 4 ≤ x) : tri x = 4 * x - 4 := by
  rw [tri, if_neg (by linarith), if_neg h.not_gt]

/-- The pieces meet: the triangle wave is the lower envelope of its rise and of the greater of the other two pieces. -/
theorem tri_eq_min_max (x : Rat) : tri x = min (4 * x) (max (2 - 4 * x) (4 * x - 4)) := by
  rcases lt_or_ge x (1 / 4) with h | h
  · rw [tri_rising h, min_eq_left (le_max_of_le_left (by linarith))]
  · rcases lt_or_ge x (3 / 4) with h' | h'
    · rw [tri_falling h h', max_eq_left (by linarith), min_eq_right (by linarith)]
    · rw [tri_returning h', max_eq_right (by linarith), min_eq_right (by linarith)]

/-- Each piece has slope 4 or -4, and taking a minimum or a maximum does not spread values further apart. -/
theorem abs_tri_sub_tri_le (x y : Rat) : |tri x - tri y| ≤ 4 * |x - y| := by
  have hrise : |4 * x - 4 * y| ≤ 4 * |x - y| := by rw [← mul_sub, abs_mul, abs_of_pos (by norm_num : (0 : Rat) < 4)]
  have hfall : |(2 - 4 * x) - (2 - 4 * y)| ≤ 4 * |x - y| := by rwa [sub_sub_sub_cancel_left, abs_sub_comm]
  have hreturn : |(4 * x - 4) - (4 * y - 4)| ≤ 4 * |x - y| := by rwa [sub_sub_sub_cancel_right]
  rw [tri_eq_min_max, tri_eq_min_max]
  exact (abs_min_sub_min_le_max _ _ _ _).trans
    (max_le hrise ((abs_max_sub_max_le_max _ _ _ _).trans (max_le hfall hreturn)))

theorem abs_tri_le_one {x : Rat} (h : 0 ≤ x) (h' : x < 1) : |tri x| ≤ 1 := by
  rw [tri_eq_min_max, abs_le]
  constructor
  · rw [le_min_iff, le_max_iff]
    exact ⟨by linarith, (le_total x (3 / 4)).imp (by intro; linarith) (by intro; linarith)⟩
  · rw [min_le_iff, max_le_iff]
    exact (le_total x (1 / 4)).imp (by intro; linarith) fun _ => ⟨by linarith, by linarith⟩

/-- The wave comes back to 0 at the wrap: its slope is at most 4 and it is 0 at phase 1. -/
theorem abs_tri_le_wrap {x : Rat} (h' : x < 1) : |tri x| ≤ 4 * (1 - x) := by
  have hone : tri 1 = 0 := by rw [tri_returning (by norm_num)]; norm_num
  have hslope := abs_tri_sub_tri_le x 1
  rwa [hone, sub_zero, abs_sub_comm x 1, abs_of_pos (sub_pos.mpr h')] at hslope

/-- Settles O32: the pieces are `tri` by cases; the slope, the range and the wrap follow from `tri_eq_min_max`. -/
theorem triangleWaveShape : Obligations.TriangleWaveShape := by
  refine ⟨fun x _ h' => ⟨tri_rising, tri_falling, tri_returning, abs_tri_le_wrap h'⟩, ?_, ?_, ?_, ?_,
    fun x h h' => abs_le.mp (abs_tri_le_one h h'), fun x y _ _ _ _ => abs_tri_sub_tri_le x y⟩
  · rw [tri_rising (by norm_num), mul_zero]
  · rw [tri_falling (by norm_num) (by norm_num)]; norm_num
  · rw [tri_falling (by norm_num) (by norm_num)]; norm_num
  · rw [tri_returning (by norm_num)]; norm_num

end Sys2Proof.Machine
end

section
/-! PROOF. What a channel contributes, and the two mixes of the channels (43_synthesizer.md R204 to R215). -/

namespace Sys2Proof.Machine

/-! ### The channels (R204, R206, R208, R210) -/

theorem active_pulse1_iff (snap : Snapshot) :
    active snap .pulse1 = true ↔ snap.reg[0x15].getLsbD 0 = true ∧ 0 < snap.timer[0]
      ∧ 8 ≤ snap.reg[0x02].toNat + 256 * (snap.reg[0x03].toNat % 8) := by
  simp [active, enabled_eq, enableBit, live, pulse1Period, period_eq, and_assoc]

theorem active_pulse2_iff (snap : Snapshot) :
    active snap .pulse2 = true ↔ snap.reg[0x15].getLsbD 1 = true ∧ 0 < snap.timer[1]
      ∧ 8 ≤ snap.reg[0x06].toNat + 256 * (snap.reg[0x07].toNat % 8) := by
  simp [active, enabled_eq, enableBit, live, pulse2Period, period_eq, and_assoc]

theorem active_triangle_iff (snap : Snapshot) :
    active snap .triangle = true ↔
      snap.reg[0x15].getLsbD 2 = true ∧ 0 < snap.timer[2] ∧ 0 < snap.timer[4] := by
  simp [active, enabled_eq, enableBit, live, timerCount, and_assoc]

theorem active_noise_iff (snap : Snapshot) :
    active snap .noise = true ↔ snap.reg[0x15].getLsbD 3 = true ∧ 0 < snap.timer[3] := by
  simp [active, enabled_eq, enableBit, live, timerCount]

/-- Settles O31: the conditions are the four `active_…_iff`, the phases `phase_pulse` and `phase_triangle`. -/
theorem channelSamples : Obligations.ChannelSamples := by
  intro snap n v
  rw [← phase_pulse, ← phase_pulse, ← phase_triangle]
  exact ⟨if_congr (active_pulse1_iff snap) rfl rfl, if_congr (active_pulse2_iff snap) rfl rfl,
    if_congr (active_triangle_iff snap) rfl rfl, if_congr (active_noise_iff snap) rfl rfl⟩

theorem voice_of_active {snap : Snapshot} {ch : Channel} (h : active snap ch = true) (n : Nat) (v : Rat) :
    voice snap n v ch = wave snap n v ch := if_pos h

theorem voice_of_silent {snap : Snapshot} {ch : Channel} (h : active snap ch = false) (n : Nat) (v : Rat) :
    voice snap n v ch = 0 := if_neg (by simp [h])

/-! ### Bounds of one channel -/

theorem abs_wave_le_one (snap : Snapshot) (n : Nat) {v : Rat} (hv : |v| ≤ 1) (ch : Channel) :
    |wave snap n v ch| ≤ 1 := by
  cases ch with
  | pulse1 => exact (abs_sq _).le
  | pulse2 => exact (abs_sq _).le
  | triangle => exact abs_tri_le_one (phase_range _ _).1 (phase_range _ _).2
  | noise => exact hv

/-- 1 where a channel is active, 0 where it is silent. -/
def weight (snap : Snapshot) (ch : Channel) : Rat := if active snap ch then 1 else 0

theorem abs_voice_le_weight (snap : Snapshot) (n : Nat) {v : Rat} (hv : |v| ≤ 1) (ch : Channel) :
    |voice snap n v ch| ≤ weight snap ch := by
  unfold weight
  split
  · next h => rw [voice_of_active h]; exact abs_wave_le_one snap n hv ch
  · next h => rw [voice_of_silent (by simpa using h), abs_zero]

theorem weight_le_one (snap : Snapshot) (ch : Channel) : weight snap ch ≤ 1 := by
  unfold weight
  split <;> norm_num

theorem weight_nonneg (snap : Snapshot) (ch : Channel) : 0 ≤ weight snap ch := by
  unfold weight
  split <;> norm_num

theorem abs_voice_le_one (snap : Snapshot) (n : Nat) {v : Rat} (hv : |v| ≤ 1) (ch : Channel) :
    |voice snap n v ch| ≤ 1 :=
  (abs_voice_le_weight snap n hv ch).trans (weight_le_one snap ch)

/-! ### The fixed-gain mix (R213) -/

/-- Every voice is within 1 of 0, so the mix is within the sum of the gains. -/
theorem abs_mixFixed_le (snap : Snapshot) (n : Nat) {v : Rat} (hv : |v| ≤ 1) :
    |mixFixed snap n v| ≤ 2849 / 10000 := by
  obtain ⟨h1, h1'⟩ := abs_le.mp (abs_voice_le_one snap n hv .pulse1)
  obtain ⟨h2, h2'⟩ := abs_le.mp (abs_voice_le_one snap n hv .pulse2)
  obtain ⟨h3, h3'⟩ := abs_le.mp (abs_voice_le_one snap n hv .triangle)
  obtain ⟨h4, h4'⟩ := abs_le.mp (abs_voice_le_one snap n hv .noise)
  unfold mixFixed dmc
  rw [abs_le]
  constructor <;> linarith

/-- Settles O33: the formula is `mixFixed`, the bound `abs_mixFixed_le`. -/
theorem fixedGainMix : Obligations.FixedGainMix :=
  fun snap n _ hlo hhi => ⟨rfl, abs_mixFixed_le snap n (abs_le.mpr ⟨hlo, hhi⟩)⟩

/-! ### The arithmetic mean (R214) -/

/-- The sum of what the channels contribute. -/
def voiceSum (snap : Snapshot) (n : Nat) (v : Rat) : Rat :=
  voice snap n v .pulse1 + voice snap n v .pulse2 + voice snap n v .triangle + voice snap n v .noise

/-- The number of active channels. -/
def weightSum (snap : Snapshot) : Rat :=
  weight snap .pulse1 + weight snap .pulse2 + weight snap .triangle + weight snap .noise

/-- Silent channels contribute 0, so the sum over the active channels is the sum over all. -/
theorem sum_map_wave_active (snap : Snapshot) (n : Nat) (v : Rat) (chs : List Channel) :
    ((chs.filter (active snap)).map (wave snap n v)).sum = (chs.map (voice snap n v)).sum := by
  induction chs with
  | nil => rfl
  | cons ch chs ih =>
    by_cases h : active snap ch = true
    · simp [h, ih, voice_of_active]
    · simp [h, ih, voice_of_silent]

theorem length_filter_active (snap : Snapshot) (chs : List Channel) :
    ((chs.filter (active snap)).length : Rat) = (chs.map (weight snap)).sum := by
  induction chs with
  | nil => rfl
  | cons ch chs ih =>
    by_cases h : active snap ch = true
    · simp [h, ih, weight, add_comm]
    · simp [h, ih, weight]

/-- The mean is one quotient: with no active channel it is the quotient by 0, which is 0. -/
theorem mixMean_eq (snap : Snapshot) (n : Nat) (v : Rat) : mixMean snap n v = voiceSum snap n v / weightSum snap := by
  have hsum := sum_map_wave_active snap n v allChannels
  have hlen := length_filter_active snap allChannels
  have hvoices : (allChannels.map (voice snap n v)).sum = voiceSum snap n v := by
    simp [allChannels, voiceSum, add_assoc]
  have hweights : (allChannels.map (weight snap)).sum = weightSum snap := by
    simp [allChannels, weightSum, add_assoc]
  unfold mixMean
  dsimp only
  rw [hsum, hlen, hvoices, hweights]
  split
  · next h =>
    rw [List.isEmpty_iff.mp h, List.length_nil, hweights, Nat.cast_zero] at hlen
    rw [← hlen, div_zero]
  · rfl

theorem abs_voiceSum_le (snap : Snapshot) (n : Nat) {v : Rat} (hv : |v| ≤ 1) :
    |voiceSum snap n v| ≤ weightSum snap := by
  have h := abs_voice_le_weight snap n hv
  have hpulses := (abs_add_le _ _).trans (add_le_add (h .pulse1) (h .pulse2))
  have htones := (abs_add_le _ _).trans (add_le_add hpulses (h .triangle))
  exact (abs_add_le _ _).trans (add_le_add htones (h .noise))

theorem weightSum_nonneg (snap : Snapshot) : 0 ≤ weightSum snap :=
  add_nonneg (add_nonneg (add_nonneg (weight_nonneg _ _) (weight_nonneg _ _)) (weight_nonneg _ _)) (weight_nonneg _ _)

theorem abs_mixMean_le_one (snap : Snapshot) (n : Nat) {v : Rat} (hv : |v| ≤ 1) : |mixMean snap n v| ≤ 1 := by
  rw [mixMean_eq, abs_div, abs_of_nonneg (weightSum_nonneg snap)]
  exact div_le_one_of_le₀ (abs_voiceSum_le snap n hv) (weightSum_nonneg snap)

theorem mix_of_all_silent {snap : Snapshot} (h : ∀ ch, active snap ch = false) (p : MixPolicy) (n : Nat) (v : Rat) :
    mix p snap n v = 0 := by
  cases p with
  | fixedGain => simp [mix, mixFixed, voice_of_silent (h _), dmc]
  | arithmeticMean => simp [mix, mixMean_eq, voiceSum, voice_of_silent (h _)]

/-- Under either policy the mix is within 1 of 0 (R213, R214). -/
theorem abs_mix_le_one (p : MixPolicy) (snap : Snapshot) (n : Nat) {v : Rat} (hv : |v| ≤ 1) :
    |mix p snap n v| ≤ 1 := by
  cases p with
  | fixedGain => exact (abs_mixFixed_le snap n hv).trans (by norm_num)
  | arithmeticMean => exact abs_mixMean_le_one snap n hv

/-- Settles O34: the mean is `voiceSum / weightSum`, and where no channel is active both sides are 0. -/
theorem arithmeticMeanMix : Obligations.ArithmeticMeanMix := by
  intro snap n v hlo hhi
  have hv : |v| ≤ 1 := abs_le.mpr ⟨hlo, hhi⟩
  refine ⟨fun h => mix_of_all_silent h _ n v, ?_, abs_mixMean_le_one snap n hv⟩
  show mixMean snap n v * weightSum snap = voiceSum snap n v
  rw [mixMean_eq]
  exact div_mul_cancel_of_imp fun h => abs_nonpos_iff.mp (h ▸ abs_voiceSum_le snap n hv)

end Sys2Proof.Machine
end

section
/-! PROOF. From the mix to the bytes of a pass (43_synthesizer.md R216 to R223). -/

namespace Sys2Proof.Machine

/-! ### Truncation and clipping (R10) -/

theorem trunc_of_nonneg {q : Rat} (h : 0 ≤ q) : trunc q = ⌊q⌋ := if_pos h

theorem trunc_of_nonpos {q : Rat} (h : q ≤ 0) : trunc q = ⌈q⌉ := by
  rcases h.lt_or_eq with h | rfl
  · have hneg : trunc q = -⌊-q⌋ := if_neg h.not_ge
    rw [hneg, Int.floor_neg, neg_neg]
  · rw [trunc_of_nonneg le_rfl, Int.floor_zero, Int.ceil_zero]

/-- Truncation passes no integer, from above or from below. -/
theorem trunc_le {q : Rat} {z : Int} (h : q ≤ z) : trunc q ≤ z := by
  rcases le_total 0 q with h0 | h0
  · rw [trunc_of_nonneg h0]
    exact_mod_cast (Int.floor_le q).trans h
  · rw [trunc_of_nonpos h0]
    exact Int.ceil_le.mpr h

theorem le_trunc {q : Rat} {z : Int} (h : z ≤ q) : z ≤ trunc q := by
  rcases le_total 0 q with h0 | h0
  · rw [trunc_of_nonneg h0]
    exact Int.le_floor.mpr h
  · rw [trunc_of_nonpos h0]
    exact_mod_cast h.trans (Int.le_ceil q)

/-- Clipping to a range is the lesser of the upper end and the greater of the lower end and the value. -/
theorem clip_eq {z lo hi : Int} (h : lo ≤ hi) : clip z lo hi = min hi (max lo z) := by
  unfold clip
  split_ifs <;> omega

/-! ### The conversion (R216) -/

theorem toPcm_eq (scale : Nat) (q : Rat) : toPcm scale q = min 32767 (max (-32768) (trunc (q * scale))) := by
  rw [toPcm, pcmMin_eq, pcmMax_eq, clip_eq (by decide)]

theorem toPcm_range (scale : Nat) (q : Rat) : -32768 ≤ toPcm scale q ∧ toPcm scale q ≤ 32767 := by
  rw [toPcm_eq]
  omega

/-- A value that truncates into the 16-bit range is not clipped. -/
theorem toPcm_unclipped {scale : Nat} {q : Rat} (hlo : -32768 ≤ trunc (q * scale)) (hhi : trunc (q * scale) ≤ 32767) :
    toPcm scale q = trunc (q * scale) := by
  rw [toPcm_eq, max_eq_right hlo, min_eq_right hhi]

theorem toPcm_of_ge {scale : Nat} {q : Rat} (h : 32767 ≤ q * scale) : toPcm scale q = 32767 := by
  have htrunc : 32767 ≤ trunc (q * scale) := le_trunc (by exact_mod_cast h)
  rw [toPcm_eq]
  omega

theorem toPcm_of_le {scale : Nat} {q : Rat} (h : q * scale ≤ -32768) : toPcm scale q = -32768 := by
  have htrunc : trunc (q * scale) ≤ -32768 := trunc_le (by exact_mod_cast h)
  rw [toPcm_eq]
  omega

theorem toPcm_of_nonneg {scale : Nat} {q : Rat} (h : 0 ≤ q * scale) (h' : q * scale < 32768) :
    toPcm scale q = ⌊q * scale⌋ := by
  have hlo : 0 ≤ ⌊q * scale⌋ := Int.floor_nonneg.mpr h
  have hhi : ⌊q * scale⌋ < 32768 := Int.floor_lt.mpr (by exact_mod_cast h')
  rw [toPcm_eq, trunc_of_nonneg h]
  omega

theorem toPcm_of_nonpos {scale : Nat} {q : Rat} (h : q * scale ≤ 0) (h' : -32769 < q * scale) :
    toPcm scale q = ⌈q * scale⌉ := by
  have hlo : -32769 < ⌈q * scale⌉ := Int.lt_ceil.mpr (by exact_mod_cast h')
  have hhi : ⌈q * scale⌉ ≤ 0 := Int.ceil_le.mpr (by exact_mod_cast h)
  rw [toPcm_eq, trunc_of_nonpos h]
  omega

/-- Settles O36: toward zero is the floor of a value at or above 0 and the ceiling of one at or below it. -/
theorem sampleIsTruncatedTowardZero : Obligations.SampleIsTruncatedTowardZero := by
  intro scale q
  have hscale : (0 : Rat) ≤ scale := Nat.cast_nonneg scale
  refine ⟨fun _ _ _ _ => rfl, (toPcm_range scale q).1, (toPcm_range scale q).2, toPcm_of_ge, toPcm_of_le,
    fun hq h' => ?_, fun hq h' => ?_⟩
  · rw [toPcm_of_nonneg (mul_nonneg hq hscale) h']
    exact ⟨Int.floor_le _, Int.lt_floor_add_one _⟩
  · rw [toPcm_of_nonpos (mul_nonpos_of_nonpos_of_nonneg hq hscale) h']
    exact ⟨Int.le_ceil _, sub_lt_iff_lt_add.mpr (Int.ceil_lt_add_one _)⟩

/-! ### No sample is clipped under the default scale (R217) -/

/-- A mix within 1 of 0, times 32767, truncates into -32767..32767. -/
theorem sample_unclipped {c : Config} (hscale : c.pcmScale = 32767) (snap : Snapshot) (n : Nat) {v : Rat}
    (hv : |v| ≤ 1) :
    sample c snap n v = trunc (mix c.mixPolicy snap n v * 32767)
    ∧ -32767 ≤ sample c snap n v ∧ sample c snap n v ≤ 32767 := by
  obtain ⟨hmix, hmix'⟩ := abs_le.mp (abs_mix_le_one c.mixPolicy snap n hv)
  have hlo : -32767 ≤ trunc (mix c.mixPolicy snap n v * 32767) := le_trunc (by push_cast; linarith)
  have hhi : trunc (mix c.mixPolicy snap n v * 32767) ≤ 32767 := trunc_le (by push_cast; linarith)
  have hsample : sample c snap n v = trunc (mix c.mixPolicy snap n v * 32767) := by
    rw [sample, hscale]
    exact toPcm_unclipped (by push_cast; omega) (by push_cast; exact hhi)
  exact ⟨hsample, hsample ▸ hlo, hsample ▸ hhi⟩

/-- Settles O35: `sample_unclipped`, for the noise of every sample as for any value in its range. -/
theorem clippingIsNeverReached : Obligations.ClippingIsNeverReached :=
  ⟨fun _ snap n _ hscale hlo hhi => sample_unclipped hscale snap n (abs_le.mpr ⟨hlo, hhi⟩), noise_range,
    fun _ snap n hscale => sample_unclipped hscale snap n (abs_le.mpr (noise_range n))⟩

/-! ### The bytes of a pass (R218, R220) -/

/-- A pass is the `j` samples before sample `j`, that sample, and the rest. -/
theorem passBytes_split (c : Config) (snap : Snapshot) {count j : Nat} (n : Nat) (h : j < count) :
    ∃ rest, passBytes c snap count n =
      passBytes c snap j n ++ (le16 (sample c snap (n + j) (noise (n + j))) ++ rest) := by
  obtain ⟨m, rfl⟩ := Nat.exists_eq_add_of_lt h
  rw [add_assoc, passBytes_add]
  exact ⟨_, rfl⟩

/-- Settles O37: the samples before sample `j` take `2 * j` bytes. -/
theorem sampleBytesLowFirst : Obligations.SampleBytesLowFirst := by
  intro c snap count n j h
  obtain ⟨rest, hsplit⟩ := passBytes_split c snap n h
  obtain ⟨lo, hi, hbytes, hvalue⟩ := le16_eq (sample c snap (n + j) (noise (n + j)))
  refine ⟨lo, hi, ?_, ?_, hvalue⟩ <;>
    rw [hsplit, hbytes, List.getElem?_append_right (by simp)] <;> simp

theorem sample_of_all_silent {snap : Snapshot} (h : ∀ ch, active snap ch = false) (c : Config) (n : Nat) (v : Rat) :
    sample c snap n v = 0 := by
  rw [sample, mix_of_all_silent h, toPcm_eq, zero_mul, trunc_of_nonneg le_rfl, Int.floor_zero]
  rfl

theorem le16_zero : le16 0 = [0, 0] := by decide

theorem passBytes_of_all_silent {snap : Snapshot} (h : ∀ ch, active snap ch = false) (c : Config) (count n : Nat) :
    passBytes c snap count n = List.replicate (2 * count) 0 := by
  induction count generalizing n with
  | zero => rfl
  | succ m ih => rw [passBytes, ih, sample_of_all_silent h, le16_zero]; rfl

/-- Settles O38: the length does not look at the samples, and a sample of silent channels is 0. -/
theorem passShape : Obligations.PassShape := ⟨passBytes_length, fun c _ count n h => passBytes_of_all_silent h c count n⟩

/-! ### What a pass reads (R223) -/

theorem live_congr {t u : Vector Nat 5} {k : Fin 5} (h : t[k] = 0 ↔ u[k] = 0) : live t k = live u k :=
  decide_eq_decide.mpr (Nat.pos_iff_ne_zero.trans ((not_congr h).trans Nat.pos_iff_ne_zero.symm))

section Reads
variable {p q : Snapshot}

/-- The mix reads a snapshot through the activity and the waveform of its channels only. -/
theorem mix_congr (hactive : active p = active q) (hwave : wave p = wave q) (m : MixPolicy) : mix m p = mix m q := by
  have hvoice : voice p = voice q := by
    unfold voice
    rw [hactive, hwave]
  funext n v
  cases m with
  | fixedGain => simp only [mix, mixFixed, hvoice]
  | arithmeticMean => simp only [mix, mixMean, hactive, hwave]

theorem passBytes_congr {c : Config} (h : sample c p = sample c q) (count n : Nat) :
    passBytes c p count n = passBytes c q count n := by
  induction count generalizing n with
  | zero => rfl
  | succ m ih => rw [passBytes, passBytes, h, ih]

end Reads

/-- Settles O39: the activity of a channel reads its enable bit, its timers by `live` and the periods of the pulses; its
waveform reads its period; the pass reads nothing else (`mix_congr`). -/
theorem synthesizerReadsOnlyItsInputs : Obligations.SynthesizerReadsOnlyItsInputs := by
  intro c p q count n h2 h3 h6 h7 hA hB h15 htimer
  have hpulse1 : pulse1Period p = pulse1Period q := congrArg₂ period h2 h3
  have hpulse2 : pulse2Period p = pulse2Period q := congrArg₂ period h6 h7
  have htriangle : trianglePeriod p = trianglePeriod q := congrArg₂ period hA hB
  have henabled : ∀ ch, enabled p.reg ch = enabled q.reg ch := fun ch => by rw [enabled_eq, enabled_eq, h15]
  have hlive : ∀ k, live p.timer k = live q.timer k := fun k => live_congr (htimer k)
  have hactive : active p = active q := by
    funext ch
    cases ch <;> simp only [active, henabled, hlive, hpulse1, hpulse2]
  have hwave : wave p = wave q := by
    funext n v ch
    cases ch <;> simp only [wave, hpulse1, hpulse2, htriangle]
  refine passBytes_congr ?_ count n
  unfold sample
  rw [mix_congr hactive hwave]

end Sys2Proof.Machine
end

section
/-! PROOF. The sink (44_audio_sink.md): what START, CONSUMED and STOP do in each run state (R240 to R247), and the
samples a stream of CONSUMED hands over (R250). -/

namespace Sys2Proof.Machine

/-! ### START (R240, R247) -/

theorem exec_start_idle {s : State} (hf : s.fault = none) (hidle : s.sink = .idle) :
    exec .start s = .next (begin s) := by
  show execStart s = _
  unfold execStart
  rw [accept_clear hf, hidle]

/-- Settles O40: START in `Idle` is `begin`, and a silent buffer is `2 * BUFFER_SAMPLES` zero bytes. -/
theorem startSubmitsSilence : Obligations.StartSubmitsSilence := by
  intro s hf hidle hbuf
  rw [exec_start_idle hf hidle, begin_eq s hbuf, silence_eq]

/-- Settles O41: the two run states other than `Idle`. -/
theorem startOutsideIdleIsRefused : Obligations.StartOutsideIdleIsRefused := by
  intro s hf hnot
  show execStart s = _
  unfold execStart
  rw [accept_clear hf]
  cases hs : s.sink with
  | idle => exact absurd hs hnot
  | running => rfl
  | stopped => rfl

/-! ### CONSUMED (R243, R246) -/

theorem nextPass_atRefill {s : State} (h : s.cfg.snapshotMode = .atRefill) :
    nextPass s = passBytes s.cfg s.snapshot s.cfg.bufferSamples s.n := by
  rw [nextPass, passSnapshot_atRefill h]

theorem passDraws_atRefill {s : State} (h : s.cfg.snapshotMode = .atRefill) : passDraws s = s.draws := by
  unfold passDraws
  rw [h]

/-- Settles O42: CONSUMED in `Running` is `refill`, and the snapshot of its pass is the present one. -/
theorem consumedRefillsAndResubmits : Obligations.ConsumedRefillsAndResubmits := by
  intro s hf hrun hcur hmode
  rw [exec_consumed_running hf hrun, refill_eq s hcur, nextPass_atRefill hmode, passDraws_atRefill hmode]
  rfl

theorem exec_consumed_of_not_running {s : State} (hf : s.fault = none) (hnot : s.sink ≠ .running) :
    exec .consumed s = .next (forget s) := by
  show execConsumed s = _
  unfold execConsumed
  rw [accept_clear hf]
  cases hs : s.sink with
  | running => exact absurd hs hnot
  | idle => rfl
  | stopped => rfl

theorem forget_eq_self {s : State} (h : s.published = []) : forget s = s := by
  rw [forget, ← h]

/-- Settles O45: CONSUMED outside `Running` only forgets the kept snapshots, and where there are none that is nothing. -/
theorem consumedOutsideRunningHasNoEffect : Obligations.ConsumedOutsideRunningHasNoEffect := by
  intro s hf hnot
  have hexec := exec_consumed_of_not_running hf hnot
  exact ⟨hexec, fun hpub => by rw [hexec, forget_eq_self hpub]⟩

/-! ### STOP (R245) -/

/-- Settles O46: the three run states. -/
theorem stopEndsTheStream : Obligations.StopEndsTheStream := by
  intro s hf
  show (_ → execStop s = _) ∧ (_ → execStop s = _)
  unfold execStop
  rw [accept_clear hf]
  cases s.sink with
  | running => exact ⟨fun _ => rfl, fun hnot => absurd rfl hnot⟩
  | idle => exact ⟨nofun, fun _ => rfl⟩
  | stopped => exact ⟨nofun, fun _ => rfl⟩

/-! ### A stream of CONSUMED (R250) -/

theorem refill_pcmOut {s : State} (h : s.cur < s.buf.length) : (refill s).pcmOut = s.pcmOut ++ [nextPass s] := by
  rw [refill_eq s h]

/-- A run of CONSUMED in `Running` appends one pass each; together the passes are one pass over all their samples, since
each starts at the counter the one before it leaves and none changes registers or timers (R221, R243). -/
theorem performAll_consumed {s : State} (hinv : Inv s) (hf : s.fault = none) (hrun : s.sink = .running)
    (hmode : s.cfg.snapshotMode = .atRefill) (m : Nat) :
    ∃ t outs, performAll (List.replicate m .consumed) s = .next t
      ∧ t.n = s.n + m * s.cfg.bufferSamples
      ∧ t.pcmOut = s.pcmOut ++ outs
      ∧ outs.length = m
      ∧ outs.flatten = passBytes s.cfg s.snapshot (m * s.cfg.bufferSamples) s.n := by
  induction m generalizing s with
  | zero => exact ⟨s, [], rfl, by simp, by simp, rfl, by simp [passBytes]⟩
  | succ m ih =>
    obtain ⟨t, outs, hperform, hn, hpcm, hlen, hflat⟩ := ih (hinv.refill hrun) hf hrun hmode
    have hcount : (m + 1) * s.cfg.bufferSamples = s.cfg.bufferSamples + m * s.cfg.bufferSamples := by
      rw [Nat.succ_mul, Nat.add_comm]
    refine ⟨t, nextPass s :: outs, ?_, ?_, ?_, congrArg (· + 1) hlen, ?_⟩
    · rw [List.replicate_succ, performAll, exec_consumed_running hf hrun]
      exact hperform
    · rw [hn, refill_n, refill_cfg, hcount, Nat.add_assoc]
    · rw [hpcm, refill_pcmOut (hinv.bufCount ▸ hinv.cur), List.append_assoc, List.singleton_append]
    · rw [List.flatten_cons, hflat, nextPass_atRefill hmode, hcount, passBytes_add]
      rfl

/-- Settles O47: START leaves a `Running` state of the invariant with K silent buffers handed over and the counter,
registers and timers as they were; the rest is `performAll_consumed` from there. -/
theorem outputStreamIsGapless : Obligations.OutputStreamIsGapless := by
  intro s m hinv hf hidle hmode
  obtain ⟨t, outs, hperform, hn, hpcm, hlen, hflat⟩ := performAll_consumed (hinv.begin hidle)
    ((begin_fault s).trans hf) (begin_sink s) ((congrArg Config.snapshotMode (begin_cfg s)).trans hmode) m
  have hsilent : (begin s).pcmOut = List.replicate s.cfg.buffers (List.replicate (2 * s.cfg.bufferSamples) 0) := by
    rw [begin_eq s hinv.bufCount, (hinv.idle hidle).2, List.nil_append, silence_eq]
  refine ⟨t, outs, ?_, ?_, hpcm.trans (by rw [hsilent]), hlen, ?_⟩
  · rw [performAll, exec_start_idle hf hidle]
    exact hperform
  · rw [hn, begin_n, begin_cfg]
  · rw [hflat, State.snapshot, begin_cfg, begin_reg, begin_timer, begin_n]

end Sys2Proof.Machine
end

section
/-! PROOF. Faults (60_exceptions.md): an access outside the register file raises fault 2 (R261), a fault is precise
(R262), and a faulted block accepts RESET alone (R263). -/

namespace Sys2Proof.Machine

/-! ### Register indices out of range (R155, R261) -/

/-- In the standard configuration no table routes a slot outside the register file to it (R69). -/
theorem StandardTables.lookup_ne_apu {s : State} (h : StandardTables s) {a : Nat}
    (ha : ¬(0x4000 ≤ a ∧ a ≤ 0x4017)) : s.rdh.lookup a ≠ .apu ∧ s.wrh.lookup a ≠ .apu := by
  obtain ⟨hread, hwrite⟩ := standardTables_iff.mp h a
  rw [hread, hwrite, if_neg ha]
  exact ⟨nofun, nofun⟩

/-- Settles O8: the accesses are `busRead_outOfRange` and `busWrite_outOfRange`, `Effect.fault_cases` gives no other
source of fault 2, and the standard configuration has no such slot. -/
theorem registerIndexOutOfRangeRaises : Obligations.RegisterIndexOutOfRangeRaises := by
  refine ⟨fun s i addr ho hf hl ha => ?_, fun s i addr v ho hf hl ha => ?_, fun _ => rfl,
    fun s t i a hf hexec ht => ?_⟩
  · rw [exec_eq, ho]
    exact busRead_outOfRange hf hl (by omega)
  · rw [exec_eq, ho]
    exact busWrite_outOfRange hf hl (by omega) v
  · obtain hnone | ⟨addr, -, -, rfl⟩ | ⟨addr, haccess, hrange, rfl⟩ := (exec_effect hexec).fault_cases hf
    · rw [hnone] at ht
      cases ht
    · cases ht
    · cases ht
      have ha : ¬(0x4000 ≤ slotOf s addr ∧ slotOf s addr ≤ 0x4017) := by omega
      refine ⟨fun hstd => ?_, ha, addr, rfl, haccess⟩
      obtain ⟨hread, hwrite⟩ := hstd.lookup_ne_apu ha
      obtain ⟨-, hl⟩ | ⟨_, -, hl⟩ := haccess
      · exact hread hl
      · exact hwrite hl

/-! ### A fault is precise (R262) -/

/-- Settles O51: by `Effect.fault_cases` an operation that leaves a fault recorded is a `raise`. -/
theorem faultsArePrecise : Obligations.FaultsArePrecise := by
  intro s t i f hf hexec ht
  obtain hnone | ⟨_, -, -, rfl⟩ | ⟨_, -, -, rfl⟩ := (exec_effect hexec).fault_cases hf
  · rw [hnone] at ht
    cases ht
  · cases ht
    rfl
  · cases ht
    rfl

/-! ### The faulted block (R263) -/

/-- Every operation but RESET passes through `accept`. -/
theorem execOperation_faulted {s : State} {f : FaultRecord} (hf : s.fault = some f) {o : Operation}
    (ho : o ≠ .reset) : execOperation o s = .fault (.stuck f) := by
  cases o with
  | reset => exact absurd rfl ho
  | _ => exact accept_faulted hf _

/-- Settles O50: RESET's next state is `resetBlock`, and every other row is an operation that `accept` stops. -/
theorem faultedBlockAcceptsOnlyReset : Obligations.FaultedBlockAcceptsOnlyReset := by
  intro s f hf
  refine ⟨⟨resetBlock s, exec_reset_next_iff.mpr rfl, resetBlock_fault s⟩, fun i hi => ?_⟩
  rw [exec_eq]
  exact execOperation_faulted hf (mt eq_reset hi)

end Sys2Proof.Machine
end

section
/-! PROOF. RESET from every state (70_reset_and_hazards.md R290), and a slot whose halt bit is set, through any number of
TICKs (R306). -/

namespace Sys2Proof.Machine

/-! ### A halted slot (R306) -/

/-- TICK writes no register and no parameter, so a slot it passes over is passed over again by the next one. -/
theorem exec_tick_of_gated {s t : State} {c : Fin 5} (h : exec .tick s = .next t) (hgated : Gated s c) :
    Gated t c ∧ t.timer[c] = s.timer[c] := by
  have hslot := timer_get_of_exec_tick h c
  rw [if_pos hgated] at hslot
  obtain ⟨hf, -⟩ := accept_next h
  obtain rfl := Host.Outcome.next.inj ((exec_tick hf).symm.trans h)
  exact ⟨hgated, hslot⟩

/-- TICK records no fault, so a run of TICKs is never stopped. -/
theorem performAll_ticks_completes {s : State} (hf : s.fault = none) (m : Nat) :
    ∃ t, performAll (List.replicate m .tick) s = .next t := by
  induction m generalizing s with
  | zero => exact ⟨s, rfl⟩
  | succ m ih =>
    rw [List.replicate_succ, performAll, exec_tick hf]
    exact ih hf

/-- Settles O28: the run completes, and each TICK keeps both the gate and the value of the slot. -/
theorem haltedSlotHoldsItsValue : Obligations.HaltedSlotHoldsItsValue := by
  intro s c m hf hpolicy hhalt
  obtain ⟨t, hrun⟩ := performAll_ticks_completes hf m
  have hkept : Gated t c ∧ t.timer[c] = s.timer[c] := by
    refine performAll_keeps (P := fun x => Gated x c ∧ x.timer[c] = s.timer[c]) ?_ hrun ⟨⟨hpolicy, hhalt⟩, rfl⟩
    rintro i hi x y hexec ⟨hgated, hvalue⟩
    obtain rfl := List.eq_of_mem_replicate hi
    obtain ⟨hgated', hslot⟩ := exec_tick_of_gated hexec hgated
    exact ⟨hgated', hslot.trans hvalue⟩
  exact ⟨t, hrun, hkept.2⟩

/-! ### RESET (R51, R290) -/

theorem resetBlock_reg_get (s : State) (k : Fin 24) : (resetBlock s).reg[k] = 0 :=
  Vector.getElem_replicate k.isLt

theorem resetBlock_timer_get (s : State) (c : Fin 5) : (resetBlock s).timer[c] = 0 :=
  Vector.getElem_replicate c.isLt

/-- Settles O52: RESET leads to `resetBlock` from any state, and its fields are those of R51. -/
theorem resetInstallsTheResetState : Obligations.ResetInstallsTheResetState := by
  intro s
  refine ⟨resetBlock s, exec_reset_next_iff.mpr rfl, resetBlock_reg_get s, resetBlock_timer_get s, resetBlock_n s,
    resetBlock_cur s, resetBlock_sink s, ?buf, ?scratch, ?tables, resetBlock_pcmOut s, resetBlock_queue s,
    resetBlock_fault s, resetBlock_cfg s⟩
  case buf => rw [resetBlock_buf, silence_eq]
  case scratch => rw [resetBlock_scratch, silence_eq]
  case tables => exact fun a => ⟨lookup_empty a, lookup_empty a⟩

end Sys2Proof.Machine
end
